-- ==== Sys2Proof/Word.lean ====
section
/-!
DEFINITION. The bit vectors of the block (30_encoding.md R50): only what the spec treats as bits.
-/

namespace Sys2Proof

/-- A segment byte: an entry of `SEGTAB` or `BUF`, and the latch `SEG` (R54). -/
abbrev Byte := BitVec 8

/-- A 2-bit index: `k`, `r`, `prow`, `widx`; all four values are legal (R56). -/
abbrev Index := BitVec 2

/-- A column sample: bit `j` is 1 when column line `j` is asserted (R52). -/
abbrev Column := BitVec 4

/-- A select pattern, active-low, bit `i` for line `i` (R55). -/
abbrev Select := BitVec 4

/-- The condition word `ss rm vk nz eq th`, bit 6 first (R58). -/
abbrev CondWord := BitVec 7

/-- A symbol code's content (R53): `some s` is the symbol identity `s` in 0..15, `none` is the code 16,
`NOKEY` as a `KEYTAB` entry and `BLANK` as a `SEGTAB` index. -/
abbrev Symbol := Option (Fin 16)

end Sys2Proof
end

