-- ==== Sys2Proof/Config.lean ====
section
/-!
DEFINITION. The parameters of the step function (00_scope.md R7, R8; 10_state.md R23) and the free values.
Every constant here is opaque and has no body: nothing can be proved of its value.
-/

namespace Sys2Proof

/-- The parameters of the step function that the spec leaves OPEN (R8; D4, D6, D21). `nMinus1` is `N - 1`, so
that the constraint `N >= 1` (R7) holds by the type. `keymap` is `KEYMAP[r][j]`: every entry is a symbol
identity 0..15 (R8, R100). `segtab` is `SEGTAB[0..15]`; entry 16 is the blank pattern, which R102 fixes. -/
structure Params where
  nMinus1 : Nat
  keymap : Vector (Vector (Fin 16) 4) 4
  segtab : Vector Byte 16
deriving DecidableEq, Repr

/-- The debounce threshold `N`, an integer >= 1 (R7). -/
def Params.N (P : Params) : Nat := P.nMinus1 + 1

/-- Free value: `N - 1` of the device (D21: OPEN). Log entry 1. -/
opaque Config.nMinus1 : Nat

/-- Free value: `KEYMAP` of the device (D6: OPEN). Log entry 1. -/
opaque Config.keymap : Vector (Vector (Fin 16) 4) 4

/-- Free value: `SEGTAB[0..15]` of the device (D4: OPEN). Log entry 1. -/
opaque Config.segtab : Vector Byte 16

/-- Free value: what `COL` shows at the n-th column read, where the environment has lined up no sample
(R117, D19: a free 4-bit input of each tick). Log entry 2. -/
opaque Config.colSample : Nat → Column

/-- The device's parameters, all free. -/
def Config.params : Params :=
  { nMinus1 := Config.nMinus1, keymap := Config.keymap, segtab := Config.segtab }

end Sys2Proof
end

