-- ==== Sys2Proof/Syntax.lean ====
section
/-!
DEFINITION. The operations of the block: one constructor per row of spec/opcode_table.json (30_encoding.md R59, R60),
and the words that stand for them (R50).
-/

namespace Sys2Proof

/-- The twelve operations (R59, R60, R155). `scan` carries the one field of format S, the slot `kk` (R60). The
format C operations have no operand: the bits of the condition word that an operation does not look at are
ignored by it (R59, R61; log entry 6). -/
inductive Instr where
  | scan (kk : Index)
  | idleStay
  | idleArm
  | pressSkip
  | pressCount
  | pressAccept
  | pressReject
  | process
  | releaseSkip
  | releaseCount
  | releaseDone
  | releaseHold
deriving DecidableEq, Repr

/-- The two operation formats (R50): `slot` is format S (2 bits), `cond` is format C (7 bits). -/
inductive Format where
  | slot
  | cond
deriving DecidableEq, Repr

/-- An operation's word in one byte, bit 0 the least significant, together with the format it is read in: which
format applies is not in the bits, it is the place in the tick (R60; log entry 5). -/
structure OpWord where
  fmt : Format
  bits : Byte
deriving DecidableEq, Repr

/-- Why a word is no operation. -/
inductive DecodeError where
  /-- A bit above the format's width is set: bits 7..2 of format S, bit 7 of format C. -/
  | reservedBits
  /-- No row of the operation map matches; R59 says that no 7-bit word is of this kind. -/
  | noRow
deriving DecidableEq, Repr

/-- One row of the operation map (R59). -/
structure CondRow where
  pattern : CondWord
  mask : CondWord
  instr : Instr
deriving DecidableEq, Repr

end Sys2Proof
end

