-- ==== Sys2Proof/Machine/State.lean ====
section
/-!
DEFINITION. The state of the block (10_state.md R10 to R25), its reset value (R24), and the reasons a step can stop.
-/

namespace Sys2Proof.Machine

/-- The FSM state, a closed set of four (R11, R51). -/
inductive Fsm where
  | idle
  | press
  | process
  | release
deriving DecidableEq, Repr

/-- Which half of the tick is next: `SCAN`, or the FSM evaluation (R116). The model's own; log entry 3. -/
inductive Phase where
  | scan
  | eval
deriving DecidableEq, Repr

/-- The Display Buffer's contents: index and byte, indexes strictly rising and below 4, and no entry equal to what
an unlisted index reads as (`Memory.wf`; log entry 10). -/
abbrev Memory := List Host.Cell

/-- The nine items of R10, and the model's own fields: the half of the tick that is next, the pair `SCAN` handed
over (R57), the parameters of the step function (R23) and the column input (R21). -/
structure State where
  /-- FSM state register (R11). -/
  st : Fsm
  /-- Row index recorded at press detection (R12). -/
  prow : Index
  /-- Column signal recorded at press detection (R13). -/
  pcol : Column
  /-- Pulse counter, a natural number (R14). -/
  cnt : Nat
  /-- Display Buffer write index (R15). -/
  widx : Index
  /-- Active scan index (R16). -/
  k : Index
  /-- Display Buffer (R17). -/
  buf : Memory
  /-- Select output latch (R19). -/
  sel : Select
  /-- Segment output latch (R19). -/
  seg : Byte
  /-- The model's own: the half of the tick that is next (log entry 3). -/
  phase : Phase
  /-- The model's own: the row index this tick's `SCAN` returned (R57, R72; log entry 3). -/
  r : Index
  /-- The model's own: the column sample this tick's `SCAN` returned (R21, R57; log entry 3). -/
  c : Column
  /-- The model's own: the parameters of the step function, which no operation writes (R23, R32; log entry 1). -/
  params : Params
  /-- The model's own: the column samples the environment has lined up, one a tick (R62; log entry 2). -/
  samples : List Column
  /-- The model's own: how many column reads have been made, the index of the next free sample (log entry 2). -/
  drawn : Nat
deriving DecidableEq, Repr

/-- The three anomalies of the source's section 7 (R140 to R143). -/
inductive Anomaly where
  /-- (a): a matching-row sample in PRESS that differs from the recorded column (R141). -/
  | spuriousPress
  /-- (b): a matching-row sample in RELEASE with any column asserted (R142). -/
  | bounceDuringRelease
  /-- (c): `PROCESS` with a recorded pair whose layout entry is the sentinel; the source calls it unreachable (R143). -/
  | invalidLookup
deriving DecidableEq, Repr

/-- Why the machine stops. -/
inductive Fault where
  /-- Raised by `Decode`, so by PROCESS and by PRESS_ACCEPT, when `KEYTAB[prow][pcol]` is `NOKEY` (R104, R143). The
  hardware has no check and would write the blank pattern; no state that meets the invariant reaches it. Safe. -/
  | sentinelAtProcess
deriving DecidableEq, Repr

/-- Why an operation has no meaning. -/
inductive Refusal where
  /-- Raised by `exec` for an operation without a meaning; no arm of `exec` does. Safe. -/
  | notModelled (mnemonic : String)
  /-- Raised by `step` when the fetched word is no operation; no fetch gives such a word (R59). Safe. -/
  | undecodable (e : DecodeError)
deriving DecidableEq, Repr

namespace State

/-- The block right after reset (R24, R160) with given parameters, lined-up samples and column-read count. The
Display Buffer lists nothing: every entry reads as `SEGTAB[BLANK]`. -/
def resetWith (P : Params) (cs : List Column) (n : Nat) : State :=
  { st := .idle, prow := 0, pcol := 0, cnt := 0, widx := 0, k := 0,
    buf := [], sel := 0b1111, seg := 0xFF,
    phase := .scan, r := 0, c := 0, params := P, samples := cs, drawn := n }

/-- The block right after reset (R24, R160): the device's own parameters, and no sample lined up. -/
def reset : State := resetWith Config.params [] 0

/-- Register write `st <- x`. -/
def setSt (x : Fsm) (s : State) : State := { s with st := x }
/-- Register write `prow <- x`. -/
def setProw (x : Index) (s : State) : State := { s with prow := x }
/-- Register write `pcol <- x`. -/
def setPcol (x : Column) (s : State) : State := { s with pcol := x }
/-- Register write `cnt <- x`. -/
def setCnt (x : Nat) (s : State) : State := { s with cnt := x }
/-- Register write `widx <- x`. -/
def setWidx (x : Index) (s : State) : State := { s with widx := x }
/-- Register write `k <- x`. -/
def setK (x : Index) (s : State) : State := { s with k := x }
/-- Replacement of the Display Buffer's contents. -/
def setBuf (x : Memory) (s : State) : State := { s with buf := x }
/-- Latch write `SEL <- x`. -/
def setSel (x : Select) (s : State) : State := { s with sel := x }
/-- Latch write `SEG <- x`. -/
def setSeg (x : Byte) (s : State) : State := { s with seg := x }
/-- The half of the tick that is next. -/
def setPhase (x : Phase) (s : State) : State := { s with phase := x }
/-- The pair `SCAN` hands to the FSM evaluation. -/
def setR (x : Index) (s : State) : State := { s with r := x }
/-- The pair `SCAN` hands to the FSM evaluation. -/
def setC (x : Column) (s : State) : State := { s with c := x }
/-- The lined-up samples. -/
def setSamples (x : List Column) (s : State) : State := { s with samples := x }
/-- The column-read count. -/
def setDrawn (x : Nat) (s : State) : State := { s with drawn := x }

end State

end Sys2Proof.Machine
end

