-- ==== Sys2Proof/WellFormed.lean ====
section
/-!
DEFINITION. Which operations, words and raw parameters are well-formed.
-/

namespace Sys2Proof

/-- An operation is well-formed when its operands are legal. The one operand is the 2-bit slot of `SCAN`, of which
all four values are legal (R56, R60), and no other operation has one: every term of `Instr` is well-formed. -/
def Instr.wf : Instr → Bool
  | .scan kk => kk.toNat < 4
  | .idleStay | .idleArm => true
  | .pressSkip | .pressCount | .pressAccept | .pressReject => true
  | .process => true
  | .releaseSkip | .releaseCount | .releaseDone | .releaseHold => true

/-- A format S word uses bits 1..0 and a format C word bits 6..0 of its byte (R50); the rest are 0. -/
def OpWord.wf (w : OpWord) : Bool :=
  match w.fmt with
  | .slot => w.bits.toNat < 4
  | .cond => w.bits.toNat < 128

/-- Parameters as an integrator writes them down, before any check: `n` for `N`, `keymap` row by row, `segtab`
with its 17 entries (R8). -/
structure RawParams where
  n : Nat
  keymap : List (List Nat)
  segtab : List Nat
deriving DecidableEq, Repr

/-- `N` is an integer >= 1; `N = 0` is outside the source's range and refused (R7; U6). -/
def RawParams.thresholdOk (p : RawParams) : Bool := 1 ≤ p.n

/-- `KEYMAP` has 4 rows of 4 positions (R6, R8). -/
def RawParams.keymapShapeOk (p : RawParams) : Bool :=
  p.keymap.length == 4 && p.keymap.all (fun row => row.length == 4)

/-- Every `KEYMAP` entry is a symbol identity 0..15; codes 17..31 are refused (R8, R53, R100; U4). -/
def RawParams.keymapSymbolsOk (p : RawParams) : Bool :=
  p.keymap.all (fun row => row.all (fun s => s < 16))

/-- `SEGTAB` has 17 entries of one byte (R102). -/
def RawParams.segtabOk (p : RawParams) : Bool :=
  p.segtab.length == 17 && p.segtab.all (fun b => b < 256)

/-- The blank entry lights no segment: with active-low lines it is 0xFF (R102). -/
def RawParams.blankOk (p : RawParams) : Bool := p.segtab[16]? == some 0xFF

/-- The raw parameters meet every constraint of R8, R100 and R102. -/
def RawParams.wf (p : RawParams) : Bool :=
  p.thresholdOk && p.keymapShapeOk && p.keymapSymbolsOk && p.segtabOk && p.blankOk

end Sys2Proof
end

