-- ==== Sys2Proof/Machine/Tables.lean ====
section
/-!
DEFINITION. The two lookup tables and the decode composition (42_tables_and_buffer.md R100 to R106, R110), with the
default contents, and the checked construction of parameters from raw numbers.
-/

namespace Sys2Proof.Machine

/-- `KEYMAP[r][j]`: the symbol identity at row `r`, column line `j` (R8). -/
def keymapAt (P : Params) (r : Index) (j : Fin 4) : Fin 16 := (P.keymap.get r.toFin).get j

/-- The Keypad Layout Table `KEYTAB[r][c]` (R100), extended with `NOKEY` for the columns 9..15 (R35). -/
def keyTab (P : Params) (r : Index) (c : Column) : Symbol :=
  if c = 0b0001 then some (keymapAt P r 0)
  else if c = 0b0010 then some (keymapAt P r 1)
  else if c = 0b0100 then some (keymapAt P r 2)
  else if c = 0b1000 then some (keymapAt P r 3)
  else none

/-- `KeyDecode(r, c)` (R101). -/
def keyDecode (P : Params) (r : Index) (c : Column) : Symbol := keyTab P r c

/-- `SEGTAB[BLANK]`: it lights no segment, so with active-low lines it is 0xFF (R102). -/
def blankPattern : Byte := 0xFF

/-- `SegEncode(s)`: the Digit Encoding Table, 17 entries (R102, R103). -/
def segEncode (P : Params) : Symbol → Byte
  | some s => P.segtab.get s
  | none => blankPattern

/-- `Decode(row, col)` (R104): `none` is the condition the source calls unreachable, `KEYTAB[row][col] = NOKEY`. -/
def decodePattern (P : Params) (row : Index) (col : Column) : Option Byte :=
  match keyDecode P row col with
  | none => none
  | some s => some (segEncode P (some s))

/-- The 5-bit symbol code: 0..15 the identity, 16 `BLANK` and `NOKEY` (R53). -/
def symbolCode : Symbol → BitVec 5
  | some s => BitVec.ofNat 5 s.val
  | none => 16

/-- The classes of a column sample (R52). -/
inductive ColumnClass where
  | noneAsserted
  | single (line : Fin 4)
  | ghost
deriving DecidableEq, Repr

/-- The class of a column sample (R52). No operation computes it (R57). -/
def columnClass (c : Column) : ColumnClass :=
  if c = 0b0000 then .noneAsserted
  else if c = 0b0001 then .single 0
  else if c = 0b0010 then .single 1
  else if c = 0b0100 then .single 2
  else if c = 0b1000 then .single 3
  else .ghost

/-- The default `KEYMAP` of R105 (from general knowledge; only to replay vectors, log entry 19). -/
def defaultKeymap : Vector (Vector (Fin 16) 4) 4 :=
  #v[#v[1, 2, 3, 10], #v[4, 5, 6, 11], #v[7, 8, 9, 12], #v[14, 0, 15, 13]]

/-- The default `SEGTAB[0..15]` of R106 (from general knowledge; only to replay vectors, log entry 19). -/
def defaultSegtab : Vector Byte 16 :=
  #v[0xC0, 0xF9, 0xA4, 0xB0, 0x99, 0x92, 0x82, 0xF8, 0x80, 0x90, 0x88, 0x83, 0xC6, 0xA1, 0x86, 0x8E]

/-- The default tables with the threshold `n + 1`. -/
def defaultParams (n : Nat) : Params :=
  { nMinus1 := n, keymap := defaultKeymap, segtab := defaultSegtab }

/-- Parameters from raw numbers, refused where they break R7, R8, R100 or R102 (U4, U6; log entry 23). -/
def paramsOfRaw (p : RawParams) : Option Params :=
  if p.wf then
    some
      { nMinus1 := p.n - 1,
        keymap := Vector.ofFn (fun r : Fin 4 => Vector.ofFn (fun j : Fin 4 =>
          Fin.ofNat 16 ((p.keymap.getD r.val []).getD j.val 0))),
        segtab := Vector.ofFn (fun s : Fin 16 => BitVec.ofNat 8 (p.segtab.getD s.val 0)) }
  else none

end Sys2Proof.Machine
end

