-- ==== Sys2Proof/Machine/Ops.lean ====
section
/-!
DEFINITION. The named operations over the Display Buffer, the ports, the registers and the anomalies
(20_memory.md R30 to R43, 42_tables_and_buffer.md R107, R108, 60_exceptions.md R140 to R149, 70_reset_and_hazards.md R160).
-/

namespace Sys2Proof.Machine

/-- What an index that is not listed reads as: the reset contents `SEGTAB[BLANK]` (R24; log entry 10). -/
def Memory.unlisted : Byte := blankPattern

/-- The byte at an index. -/
def Memory.read : Memory → Nat → Byte
  | [], _ => Memory.unlisted
  | (b, v) :: m, a => if b = a then v else Memory.read m a

/-- The contents without what is listed at an index. -/
def Memory.erase (m : Memory) (a : Nat) : Memory := m.filter (fun x => x.1 != a)

/-- The contents with one more entry, before the first entry of a higher index. -/
def Memory.insert : Memory → Nat → Byte → Memory
  | [], a, v => [(a, v)]
  | (b, w) :: m, a, v => if a < b then (a, v) :: (b, w) :: m else (b, w) :: Memory.insert m a v

/-- A one-byte write: it replaces the whole entry (R37), and keeps the canonical form. -/
def Memory.write (m : Memory) (a : Nat) (v : Byte) : Memory :=
  if v = Memory.unlisted then m.erase a else (m.erase a).insert a v

/-- The canonical form: indexes strictly rising and below 4 (R17), no entry equal to what an unlisted index
reads as. -/
def Memory.wf (m : Memory) : Bool :=
  decide (m.Pairwise (fun x y => x.1 < y.1)) && m.all (fun x => decide (x.1 < 4) && x.2 != Memory.unlisted)

/-- `BufRead(i)` (R108). -/
def bufRead (i : Index) (s : State) : Byte := s.buf.read i.toNat

/-- `MemWrite(BUF:i, 1, v)` (R33, R37). -/
def bufWrite (i : Index) (v : Byte) (s : State) : State := s.setBuf (s.buf.write i.toNat v)

/-- `BufPush(pat)` (R107): write at the current index, then advance it modulo 4, wrapping without a signal. -/
def bufPush (pat : Byte) (s : State) : State := (bufWrite s.widx pat s).setWidx (s.widx + 1)

/-- `onecold4(i)`: bit `i` is 0, the other three are 1 (R55, R118). -/
def onecold4 (i : Index) : Select := 0b1111 ^^^ ((1 : Select) <<< i.toNat)

/-- All select lines deselected (R55, R71). -/
def allDeselected : Select := 0b1111

/-- `PortWrite(SEL, v)`: the whole latch is replaced (R43). -/
def portWriteSel (v : Select) (s : State) : State := s.setSel v

/-- `PortWrite(SEG, v)`: the whole latch is replaced (R43). -/
def portWriteSeg (v : Byte) (s : State) : State := s.setSeg v

/-- `PortRead(COL)`: the 4 column bits as they are at that instant (R43): the next lined-up sample, or a free
value where none is lined up (R117; log entry 2). -/
def portReadCol (s : State) : Column :=
  match s.samples with
  | c :: _ => c
  | [] => Config.colSample s.drawn

/-- The input moves on by one column read. -/
def consumeSample (s : State) : State := (s.setSamples s.samples.tail).setDrawn (s.drawn + 1)

/-- `Wait(T_SETTLE)`: no state change; its length enters no rule (R75; log entry 16). -/
def settleWait (s : State) : State := s

/-- `cnt <- cnt + 1`, natural-number increment (R118). -/
def countPulse (s : State) : State := s.setCnt (s.cnt + 1)

/-- TAKING AN ANOMALY, the block's only counterpart of an exception (R140 to R143, R148): nothing is saved and
nothing is vectored; each is absorbed by the state change of one operation, but the one the source calls
unreachable, which is the model-only fault of R104. The return is the ordinary path to IDLE (R149): after a
spurious press the machine is already there, and after a bounce it is taken by RELEASE_DONE. -/
def absorbAnomaly (a : Anomaly) (s : State) : Host.Outcome State Fault Refusal :=
  match a with
  | .spuriousPress => .next (s.setSt .idle)
  | .bounceDuringRelease => .next (s.setCnt 0)
  | .invalidLookup => .fault .sentinelAtProcess

/-- `PROCESS` (R87), shared by the operation of that name and by PRESS_ACCEPT, which runs it in the same
evaluation (R80): decode the recorded pair, push the pattern, clear the counter, go to RELEASE. -/
def processRecorded (s : State) : Host.Outcome State Fault Refusal :=
  match decodePattern s.params s.prow s.pcol with
  | none => absorbAnomaly .invalidLookup s
  | some pat => .next (((bufPush pat s).setCnt 0).setSt .release)

/-- The state after `f`, where there is one. -/
def afterNext (o : Host.Outcome State Fault Refusal) (f : State → Host.Outcome State Fault Refusal) :
    Host.Outcome State Fault Refusal :=
  match o with
  | .next s => f s
  | .fault e => .fault e
  | .refused e => .refused e

/-- Reset applied at a tick boundary (R160, R162; log entry 17): every item of R10 takes its reset value, whatever
came before. The parameters and the input stream are not the block's and stay. -/
def applyReset (s : State) : State := State.resetWith s.params s.samples s.drawn

end Sys2Proof.Machine
end

