-- ==== Sys2Proof/Machine/Operands.lean ====
section
/-!
DEFINITION. The operands of an FSM evaluation (30_encoding.md R57).
-/

namespace Sys2Proof.Machine

/-- `r`: the row index the tick's sample was taken from, the value of `k` before `SCAN` advanced it (R57, R72). -/
def operandRow (s : State) : Index := s.r

/-- `c`: the 4 bits read from `COL` in this tick, raw (R57). -/
def operandCol (s : State) : Column := s.c

/-- The layout-table entry of the arming test, at `(r, c)` (R57, R58). -/
def armingEntry (s : State) : Symbol := keyDecode s.params (operandRow s) (operandCol s)

/-- The layout-table entry of `PROCESS`, at `(prow, pcol)` (R57, R87). -/
def recordedEntry (s : State) : Symbol := keyDecode s.params s.prow s.pcol

end Sys2Proof.Machine
end

