-- ==== Sys2Proof/Machine/Idle.lean ====
section
/-!
DEFINITION. The IDLE operations (41_debounce_fsm.md R81, R82).
-/

namespace Sys2Proof.Machine

/-- `IDLE_STAY` (R81): no state change. -/
def execIdleStay (s : State) : Host.Outcome State Fault Refusal := .next s

/-- `IDLE_ARM` (R82): record the row and the raw sample, clear the counter, go to PRESS. -/
def execIdleArm (s : State) : Host.Outcome State Fault Refusal :=
  .next ((((s.setProw (operandRow s)).setPcol (operandCol s)).setCnt 0).setSt .press)

end Sys2Proof.Machine
end

