-- ==== Sys2Proof/Machine/Press.lean ====
section
/-!
DEFINITION. The PRESS operations (41_debounce_fsm.md R83 to R86).
-/

namespace Sys2Proof.Machine

/-- `PRESS_SKIP` (R83): no state change. -/
def execPressSkip (s : State) : Host.Outcome State Fault Refusal := .next s

/-- `PRESS_COUNT` (R84): count the sample. -/
def execPressCount (s : State) : Host.Outcome State Fault Refusal := .next (countPulse s)

/-- `PRESS_ACCEPT` (R85): count the sample, enter PROCESS, and run PROCESS in the same evaluation (R80). -/
def execPressAccept (s : State) : Host.Outcome State Fault Refusal :=
  processRecorded ((countPulse s).setSt .process)

/-- `PRESS_REJECT` (R86): the anomaly (a), a spurious press (R141). -/
def execPressReject (s : State) : Host.Outcome State Fault Refusal := absorbAnomaly .spuriousPress s

end Sys2Proof.Machine
end

