-- ==== Sys2Proof/Machine/Process.lean ====
section
/-!
DEFINITION. The operation PROCESS (41_debounce_fsm.md R87).
-/

namespace Sys2Proof.Machine

/-- `PROCESS` (R87). It ignores the tick's sample: it acts on the recorded pair. -/
def execProcess (s : State) : Host.Outcome State Fault Refusal := processRecorded s

end Sys2Proof.Machine
end

