-- ==== Sys2Proof/Machine/Release.lean ====
section
/-!
DEFINITION. The RELEASE operations (41_debounce_fsm.md R88 to R91).
-/

namespace Sys2Proof.Machine

/-- `RELEASE_SKIP` (R88): no state change. -/
def execReleaseSkip (s : State) : Host.Outcome State Fault Refusal := .next s

/-- `RELEASE_COUNT` (R89): count the empty sample. -/
def execReleaseCount (s : State) : Host.Outcome State Fault Refusal := .next (countPulse s)

/-- `RELEASE_DONE` (R90): count the empty sample and go to IDLE; the counter keeps its value. -/
def execReleaseDone (s : State) : Host.Outcome State Fault Refusal := .next ((countPulse s).setSt .idle)

/-- `RELEASE_HOLD` (R91): the anomaly (b), a bounce during release (R142). -/
def execReleaseHold (s : State) : Host.Outcome State Fault Refusal := absorbAnomaly .bounceDuringRelease s

end Sys2Proof.Machine
end

