-- ==== Sys2Proof/Machine/Scan.lean ====
section
/-!
DEFINITION. The Scan/Refresh Cycle: the operation SCAN (40_scan_refresh.md R70 to R79).
-/

namespace Sys2Proof.Machine

/-- Step (a): deselect every select line (R71). -/
def scanDeselect (s : State) : State := portWriteSel allDeselected s

/-- Step (b): select exactly line `kk` (R71). -/
def scanSelect (kk : Index) (s : State) : State := portWriteSel (onecold4 kk) s

/-- Step (c): drive the stored pattern of digit `kk` (R73). -/
def scanRefresh (kk : Index) (s : State) : State := portWriteSeg (bufRead kk s) s

/-- Step (d): read `COL` once, and hand over the sample and the row it was taken from (R72, R74). -/
def scanSample (kk : Index) (s : State) : State := consumeSample ((s.setC (portReadCol s)).setR kk)

/-- Step (e): advance the scan index modulo 4 (R76). -/
def scanAdvance (kk : Index) (s : State) : State := s.setK (kk + 1)

/-- The states after (a), (b), (c), the settle wait, (d) and (e), in the order of R70. -/
def scanStages (kk : Index) (s : State) : List State :=
  let sa := scanDeselect s
  let sb := scanSelect kk sa
  let sc := scanRefresh kk sb
  let sw := settleWait sc
  let sd := scanSample kk sw
  [sa, sb, sc, sw, sd, scanAdvance kk sd]

/-- What the outside sees on `(SEL, SEG)` after each of (a), (b), (c) (R177). -/
def scanPortEvents (kk : Index) (s : State) : List (Select × Byte) :=
  ((scanStages kk s).take 3).map (fun t => (t.sel, t.seg))

/-- `SCAN` (R70): the last of its stages. The operand `kk` is the value of `k` at the start of the tick (R60; log
entry 4). -/
def execScan (kk : Index) (s : State) : Host.Outcome State Fault Refusal :=
  .next (scanAdvance kk (scanSample kk (settleWait (scanRefresh kk (scanSelect kk (scanDeselect s))))))

end Sys2Proof.Machine
end

