-- ==== Sys2Proof/Machine/Dispatch.lean ====
section
/-!
DEFINITION. One arm per operation, in the table's order.
-/

namespace Sys2Proof.Machine

def exec (i : Instr) (s : State) : Host.Outcome State Fault Refusal :=
  match i with
  | .scan kk => Sys2Proof.Machine.execScan kk s
  | .idleStay => Sys2Proof.Machine.execIdleStay s
  | .idleArm => Sys2Proof.Machine.execIdleArm s
  | .pressSkip => Sys2Proof.Machine.execPressSkip s
  | .pressCount => Sys2Proof.Machine.execPressCount s
  | .pressAccept => Sys2Proof.Machine.execPressAccept s
  | .pressReject => Sys2Proof.Machine.execPressReject s
  | .process => Sys2Proof.Machine.execProcess s
  | .releaseSkip => Sys2Proof.Machine.execReleaseSkip s
  | .releaseCount => Sys2Proof.Machine.execReleaseCount s
  | .releaseDone => Sys2Proof.Machine.execReleaseDone s
  | .releaseHold => Sys2Proof.Machine.execReleaseHold s

end Sys2Proof.Machine
end

