-- ==== Sys2Proof/Decode.lean ====
section
/-!
DEFINITION. The decoder of operation words, total and rejecting by name, and the encoder (30_encoding.md R58 to R60).
-/

namespace Sys2Proof

/-- The operation map of R59, row for row: match, mask, operation. -/
def condRows : List CondRow :=
  [ ⟨0x00, 0x68, .idleStay⟩,
    ⟨0x08, 0x68, .idleArm⟩,
    ⟨0x20, 0x70, .pressSkip⟩,
    ⟨0x32, 0x73, .pressCount⟩,
    ⟨0x33, 0x73, .pressAccept⟩,
    ⟨0x30, 0x72, .pressReject⟩,
    ⟨0x40, 0x60, .process⟩,
    ⟨0x60, 0x70, .releaseSkip⟩,
    ⟨0x70, 0x75, .releaseCount⟩,
    ⟨0x71, 0x75, .releaseDone⟩,
    ⟨0x74, 0x74, .releaseHold⟩ ]

/-- A row matches when `(cw and mask) == match` (R59). -/
def rowMatches (cw : CondWord) (row : CondRow) : Bool := (cw &&& row.mask) == row.pattern

/-- The operation a condition word selects (R59). -/
def decodeCond (cw : CondWord) : Option Instr := (condRows.find? (rowMatches cw)).map CondRow.instr

/-- The decoder: a format S word is `SCAN` of its slot (R60), a format C word goes through the operation map. -/
def decode (w : OpWord) : Except DecodeError Instr :=
  if w.wf then
    match w.fmt with
    | .slot => .ok (.scan (w.bits.setWidth 2))
    | .cond =>
      match decodeCond (w.bits.setWidth 7) with
      | some i => .ok i
      | none => .error .noRow
  else .error .reservedBits

/-- The encoder, from the patterns of R59 and R60, every ignored bit written 0. -/
def encode : Instr → OpWord
  | .scan kk => ⟨.slot, kk.setWidth 8⟩
  | .idleStay => ⟨.cond, 0b0000000⟩
  | .idleArm => ⟨.cond, 0b0001000⟩
  | .pressSkip => ⟨.cond, 0b0100000⟩
  | .pressCount => ⟨.cond, 0b0110010⟩
  | .pressAccept => ⟨.cond, 0b0110011⟩
  | .pressReject => ⟨.cond, 0b0110000⟩
  | .process => ⟨.cond, 0b1000000⟩
  | .releaseSkip => ⟨.cond, 0b1100000⟩
  | .releaseCount => ⟨.cond, 0b1110000⟩
  | .releaseDone => ⟨.cond, 0b1110001⟩
  | .releaseHold => ⟨.cond, 0b1110100⟩

/-- The bits of its word that an operation looks at (R59, R60): both bits of format S, the mask of format C. -/
def bitsLookedAt : Instr → Byte
  | .scan _ => 0x03
  | .idleStay => 0x68
  | .idleArm => 0x68
  | .pressSkip => 0x70
  | .pressCount => 0x73
  | .pressAccept => 0x73
  | .pressReject => 0x72
  | .process => 0x60
  | .releaseSkip => 0x70
  | .releaseCount => 0x75
  | .releaseDone => 0x75
  | .releaseHold => 0x74

/-- The operation of a word of the opcode table. A word of at most 2 bits is read in format S and a longer one
in format C: a byte says nothing of its format, and `SCAN` is not selected by a condition word (R60; log entry 5).
A word with a bit set above the byte is none. -/
def decodeTableWord (nbits w : Nat) : Option Instr :=
  if 256 ≤ w then none
  else
    match decode ⟨if nbits ≤ 2 then .slot else .cond, BitVec.ofNat 8 w⟩ with
    | .ok i => some i
    | .error _ => none

end Sys2Proof
end

