-- ==== Sys2Proof/Machine/Flags.lean ====
section
/-!
DEFINITION. The condition word, combinational and stored nowhere (30_encoding.md R51, R58; 10_state.md R22), and the
word of the next operation.
-/

namespace Sys2Proof.Machine

/-- The 2-bit state code (R51). -/
def fsmCode : Fsm → BitVec 2
  | .idle => 0b00
  | .press => 0b01
  | .process => 0b10
  | .release => 0b11

/-- `rm`, row match: `r == prow` (R58). -/
def rowMatch (s : State) : Bool := operandRow s == s.prow

/-- `vk`, valid key: `KEYTAB[r][c] != NOKEY` (R58). -/
def validKey (s : State) : Bool := (armingEntry s).isSome

/-- `nz`, non-zero: `c != 0000` (R58). -/
def nonZero (s : State) : Bool := operandCol s != 0b0000

/-- `eq`, equal: `c == pcol`, all four bits (R58, R118). -/
def sameColumn (s : State) : Bool := operandCol s == s.pcol

/-- `th`, threshold: `cnt + 1 > N`, in natural numbers (R58, R92). -/
def overThreshold (s : State) : Bool := decide (s.cnt + 1 > s.params.N)

/-- The condition word of the given bits, `ss` in bits 6..5 down to `th` in bit 0 (R58). -/
def packCond (ss : BitVec 2) (rm vk nz eq th : Bool) : CondWord :=
  ss ++ BitVec.ofBool rm ++ BitVec.ofBool vk ++ BitVec.ofBool nz ++ BitVec.ofBool eq ++ BitVec.ofBool th

/-- `cw = (ss, rm, vk, nz, eq, th)`, from the state before the evaluation and the tick's operands (R58). -/
def condWord (s : State) : CondWord :=
  packCond (fsmCode s.st) (rowMatch s) (validKey s) (nonZero s) (sameColumn s) (overThreshold s)

/-- The word of the next operation: `SCAN` of the slot `k` at the start of a tick (R60), the condition word at the
FSM evaluation (R58). -/
def fetch (s : State) : OpWord :=
  match s.phase with
  | .scan => ⟨.slot, s.k.setWidth 8⟩
  | .eval => ⟨.cond, (condWord s).setWidth 8⟩

/-- The half of the tick after this one: one evaluation after each `SCAN`, one `SCAN` after each evaluation (R3, R116). -/
def nextPhase : Phase → Phase
  | .scan => .eval
  | .eval => .scan

/-- A state whose next step runs the given operation, for `State.withFetchWord` (log entry 7): the half of the tick, and
what the condition word of R58 is computed from. PRESS_ACCEPT and PROCESS act on a recorded pair, which an arming
would have left (R122): `pcol` is given a column that holds a key. -/
def placeOp (i : Instr) (s : State) : State :=
  match i with
  | .scan kk => (s.setPhase .scan).setK kk
  | .idleStay => ((s.setPhase .eval).setSt .idle).setC 0
  | .idleArm => ((s.setPhase .eval).setSt .idle).setC 1
  | .pressSkip => ((s.setPhase .eval).setSt .press).setR (s.prow + 1)
  | .pressCount => ((((s.setPhase .eval).setSt .press).setR s.prow).setC s.pcol).setCnt 0
  | .pressAccept =>
    (((((s.setPhase .eval).setSt .press).setR s.prow).setPcol 1).setC 1).setCnt s.params.N
  | .pressReject => (((s.setPhase .eval).setSt .press).setR s.prow).setC (s.pcol + 1)
  | .process => ((s.setPhase .eval).setSt .process).setPcol 1
  | .releaseSkip => ((s.setPhase .eval).setSt .release).setR (s.prow + 1)
  | .releaseCount => ((((s.setPhase .eval).setSt .release).setR s.prow).setC 0).setCnt 0
  | .releaseDone => ((((s.setPhase .eval).setSt .release).setR s.prow).setC 0).setCnt s.params.N
  | .releaseHold => (((s.setPhase .eval).setSt .release).setR s.prow).setC 1

end Sys2Proof.Machine
end

