-- ==== Sys2Proof/Machine/Step.lean ====
section
/-!
DEFINITION. One step: fetch the word of the next operation, decode it, run it, and pass to the other half of the tick
(43_tick_and_properties.md R116, R117; log entry 3).
-/

namespace Sys2Proof.Machine

/-- One step runs one operation: `SCAN` in the first half of a tick, the selected FSM operation (with PROCESS chained
to PRESS_ACCEPT, R80) in the second. -/
def step (s : State) : Host.Outcome State Fault Refusal :=
  match decode (fetch s) with
  | .error e => .refused (.undecodable e)
  | .ok i => afterNext (exec i s) (fun t => .next (t.setPhase (nextPhase s.phase)))

/-- The state `s` arranged so that the very next step fetches and runs the operation of the given word of the opcode
table. The block has no store of operations (R42): what is arranged is what the word is computed from (log entry 7). -/
def State.withFetchWord (s : State) (nbits w : Nat) : State :=
  match decodeTableWord nbits w with
  | some i => placeOp i s
  | none => s

end Sys2Proof.Machine
end

