-- ==== Sys2Proof/Machine/Tick.lean ====
section
/-!
DEFINITION. The tick (43_tick_and_properties.md R116, R117) and runs of ticks.
-/

namespace Sys2Proof.Machine

/-- `Tick` (R116): from the start of a tick, one `SCAN` and then one FSM evaluation on what it returned. -/
def tick (s : State) : Host.Outcome State Fault Refusal := afterNext (step s) step

/-- `n` ticks one after the other, stopping at a fault or a refusal. -/
def ticks : Nat → State → Host.Outcome State Fault Refusal
  | 0, s => .next s
  | n + 1, s => afterNext (tick s) (ticks n)

end Sys2Proof.Machine
end

