-- ==== Sys2Proof/Safety.lean ====
section
/-!
DEFINITION. What holds between any two steps of the block (43_tick_and_properties.md section 3), in the terms the
statements use.
-/

namespace Sys2Proof.Machine

/-- The states in which a key is being confirmed or its release awaited. -/
def keyPending (s : State) : Bool := s.st == .press || s.st == .release

/-- The invariants of R121, R122, R123 and R128, and the canonical form of the Display Buffer. -/
structure State.Inv (s : State) : Prop where
  /-- `st` is never PROCESS between two steps (R121). -/
  notProcess : s.st ≠ .process
  /-- While a key is pending, the recorded pair has a layout entry (R122). -/
  recordedValid : keyPending s = true → (recordedEntry s).isSome = true
  /-- The counter never exceeds `N + 1` (R128). -/
  cntBound : s.cnt ≤ s.params.N + 1
  /-- While a key is pending, it never exceeds `N` (R128). -/
  cntPending : keyPending s = true → s.cnt ≤ s.params.N
  /-- `SEL` is `1111` or a one-cold pattern (R123). -/
  selLegal : s.sel = allDeselected ∨ ∃ i, s.sel = onecold4 i
  /-- The Display Buffer has its canonical form (log entry 10). -/
  bufWf : s.buf.wf = true

/-- How the slot just served, the select latch and the operands agree from the first `SCAN` on (R72, R123). -/
structure State.SlotInv (s : State) : Prop where
  /-- Before the first column read nothing is selected; after it the selected line is the slot before `k` (R123). -/
  selServed : (s.drawn = 0 ∧ s.sel = allDeselected ∧ s.phase = .scan) ∨ (s.drawn ≠ 0 ∧ s.sel = onecold4 (s.k - 1))
  /-- During the evaluation the row operand is the slot before `k` (R72). -/
  rowServed : s.phase = .eval → s.r = s.k - 1

end Sys2Proof.Machine
end

