-- ==== Sys2Proof/Certificates/Slice0/Obligations.lean ====
section
/-!
DEFINITION. The statements for the provers. `s.phase = .scan` is the start of a tick and `s.phase = .eval` the FSM evaluation
after its SCAN (log entry 3). Where an equation gives the whole next state as a record update of `s`, every item that is
not named in it is unchanged: that is the frame.
-/

open Sys2Proof Sys2Proof.Machine

/-! ### Words -/

/-- R59, R60: twelve words written out from the encodings, ignored bits set in several of them, decode to the
operations they stand for (the condition words are those of the vectors V4, V2, V7, V8, V10, V13, V16, P4, V19, V20, V21). -/
def Obligations.SpecWordsDecodeToTheirOperations : Prop :=
  decode ⟨.slot, 0b10⟩ = .ok (.scan 2) ∧
  decode ⟨.cond, 0b0000101⟩ = .ok .idleStay ∧
  decode ⟨.cond, 0b0011100⟩ = .ok .idleArm ∧
  decode ⟨.cond, 0b0101110⟩ = .ok .pressSkip ∧
  decode ⟨.cond, 0b0111110⟩ = .ok .pressCount ∧
  decode ⟨.cond, 0b0111111⟩ = .ok .pressAccept ∧
  decode ⟨.cond, 0b0110100⟩ = .ok .pressReject ∧
  decode ⟨.cond, 0b1000001⟩ = .ok .process ∧
  decode ⟨.cond, 0b1101100⟩ = .ok .releaseSkip ∧
  decode ⟨.cond, 0b1110000⟩ = .ok .releaseCount ∧
  decode ⟨.cond, 0b1110001⟩ = .ok .releaseDone ∧
  decode ⟨.cond, 0b1111111⟩ = .ok .releaseHold

/-- Decode and encode agree: an encoded well-formed operation decodes to itself; a well-formed word decodes to a
well-formed operation whose own word it equals on the bits that operation looks at; the other bits do not matter;
and a word with a bit above its format is rejected by name. -/
def Obligations.DecodeAndEncodeAgree : Prop :=
  (∀ i : Instr, i.wf = true → (encode i).wf = true ∧ decode (encode i) = .ok i) ∧
  (∀ w : OpWord, w.wf = true → ∃ i, decode w = .ok i ∧ i.wf = true ∧ (encode i).fmt = w.fmt ∧
    w.bits &&& bitsLookedAt i = (encode i).bits) ∧
  (∀ (w w' : OpWord) (i : Instr), decode w = .ok i → w'.wf = true → w'.fmt = w.fmt →
    w'.bits &&& bitsLookedAt i = w.bits &&& bitsLookedAt i → decode w' = .ok i) ∧
  (∀ w : OpWord, w.wf = false → decode w = .error .reservedBits)

/-- R59: exactly one row of the operation map matches every value of the condition word. -/
def Obligations.ExactlyOneRowMatchesEveryConditionWord : Prop :=
  ∀ cw : CondWord, ∃! row : CondRow, row ∈ condRows ∧ cw &&& row.mask = row.pattern

/-- R58: each field of the condition word. -/
def Obligations.ConditionWordFields : Prop :=
  ∀ s : State,
    (condWord s).extractLsb' 5 2 = fsmCode s.st ∧
    (condWord s).getLsbD 4 = decide (s.r = s.prow) ∧
    (condWord s).getLsbD 3 = (keyDecode s.params s.r s.c).isSome ∧
    (condWord s).getLsbD 2 = decide (s.c ≠ 0b0000) ∧
    (condWord s).getLsbD 1 = decide (s.c = s.pcol) ∧
    (condWord s).getLsbD 0 = decide (s.cnt + 1 > s.params.N)

/-- R80: the condition word and the operation map select the operation of the case tree. -/
def Obligations.SelectionFollowsTheCaseTree : Prop :=
  ∀ s : State, s.phase = .eval →
    decode (fetch s) = .ok (match s.st with
      | .idle => if (keyDecode s.params s.r s.c).isSome then .idleArm else .idleStay
      | .press =>
        if s.r ≠ s.prow then .pressSkip
        else if s.c ≠ s.pcol then .pressReject
        else if s.cnt + 1 > s.params.N then .pressAccept
        else .pressCount
      | .process => .process
      | .release =>
        if s.r ≠ s.prow then .releaseSkip
        else if s.c ≠ 0b0000 then .releaseHold
        else if s.cnt + 1 > s.params.N then .releaseDone
        else .releaseCount)

/-! ### The step and the tick -/

/-- R59, R60, R116: a step runs the decoded operation: where that answers a next state, the step answers the same state with
the other half of the tick next (log entry 3), and where it stops, the step stops in the same way. -/
def Obligations.StepRunsTheDecodedOperation : Prop :=
  ∀ (s : State) (i : Instr), decode (fetch s) = .ok i → i.wf = true →
    step s = (match exec i s with
      | .next t => .next { t with phase := nextPhase s.phase }
      | .fault e => .fault e
      | .refused e => .refused e)

/-- R60: whatever the state, a tick starts with SCAN of the slot `k`, and the word of it is the two bits of `k`. -/
def Obligations.TickStartsWithScanOfSlotK : Prop :=
  ∀ s : State, s.phase = .scan →
    (fetch s).fmt = .slot ∧ (fetch s).bits.toNat = s.k.toNat ∧ decode (fetch s) = .ok (.scan s.k)

/-- R3, R116: a tick is one SCAN and then exactly one FSM evaluation on what that SCAN returned. -/
def Obligations.TickIsOneScanThenOneEvaluation : Prop :=
  ∀ s : State, s.phase = .scan →
    ∃ (u : State) (i : Instr),
      exec (.scan s.k) s = .next u ∧
      decode (fetch { u with phase := .eval }) = .ok i ∧ (∀ kk, i ≠ .scan kk) ∧
      (∀ t, exec i { u with phase := .eval } = .next t → tick s = .next { t with phase := .scan }) ∧
      (∀ e, exec i { u with phase := .eval } = .fault e → tick s = .fault e)

/-! ### SCAN -/

/-- R70: what SCAN leaves: line `kk` alone selected, the stored pattern of digit `kk` on the segments, the sample
and the row handed over, one sample used up, the scan index advanced modulo 4, and nothing else changed. Where no
sample is lined up the sample is a free value (log entry 2). -/
def Obligations.ScanServesItsSlot : Prop :=
  ∀ (kk : Index) (s : State), ∃ t : State,
    exec (.scan kk) s = .next t ∧
    t = { s with sel := t.sel, seg := bufRead kk s, k := t.k, r := kk, c := t.c,
                 samples := s.samples.tail, drawn := s.drawn + 1 } ∧
    (∀ j : Fin 4, t.sel.getLsbD j.val = decide (j.val ≠ kk.toNat)) ∧
    t.k.toNat = (kk.toNat + 1) % 4 ∧
    (∀ x xs, s.samples = x :: xs → t.c = x) ∧
    (s.samples = [] → t.c = Config.colSample s.drawn) ∧
    (∀ i, bufRead i t = bufRead i s)

/-- R70 (a), (b), (c), R177: the port events of SCAN, in order, and SCAN is the last of its stages. That the listed order of
the steps is the order of the events is the spec's own choice (D15; log entry 16, DESIGN CHOICE). -/
def Obligations.ScanPortEventsInOrder : Prop :=
  ∀ (kk : Index) (s : State),
    scanPortEvents kk s = [(0b1111, s.seg), (onecold4 kk, s.seg), (onecold4 kk, bufRead kk s)] ∧
    ∃ t, (scanStages kk s).getLast? = some t ∧ exec (.scan kk) s = .next t

/-- R79: at every stage of SCAN at most one select line is active. -/
def Obligations.AtMostOneSelectLineActiveDuringScan : Prop :=
  ∀ (kk : Index) (s u : State), u ∈ scanStages kk s →
    ∀ i j : Fin 4, u.sel.getLsbD i.val = false → u.sel.getLsbD j.val = false → i = j

/-- R76: the scan index advances by one modulo 4 in every tick, in every FSM state. -/
def Obligations.ScanIndexAdvancesInEveryTick : Prop :=
  ∀ s t : State, s.phase = .scan → tick s = .next t →
    t.phase = .scan ∧ t.k.toNat = (s.k.toNat + 1) % 4

/-! ### The FSM operations: selected, completed, and their whole effect -/

/-- R81: in IDLE a sample whose layout entry is the sentinel changes nothing. -/
def Obligations.IdleStayChangesNothing : Prop :=
  ∀ s : State, s.phase = .eval → s.st = .idle → keyDecode s.params s.r s.c = none →
    condWord s &&& 0x68 = 0x00 ∧ decode (fetch s) = .ok .idleStay ∧
    exec .idleStay s = .next s ∧
    step s = .next { s with phase := .scan }

/-- R82: in IDLE a valid key is recorded, the counter cleared, and PRESS entered. -/
def Obligations.IdleArmRecordsTheKey : Prop :=
  ∀ (s : State) (x : Fin 16), s.phase = .eval → s.st = .idle → keyDecode s.params s.r s.c = some x →
    condWord s &&& 0x68 = 0x08 ∧ decode (fetch s) = .ok .idleArm ∧
    exec .idleArm s = .next { s with prow := s.r, pcol := s.c, cnt := 0, st := .press } ∧
    step s = .next { s with prow := s.r, pcol := s.c, cnt := 0, st := .press, phase := .scan }

/-- R83, R88: in PRESS and in RELEASE the sample of another row changes nothing. -/
def Obligations.OtherRowsAreSkipped : Prop :=
  ∀ s : State, s.phase = .eval → s.r ≠ s.prow →
    (s.st = .press → condWord s &&& 0x70 = 0x20 ∧ decode (fetch s) = .ok .pressSkip ∧ exec .pressSkip s = .next s ∧
      step s = .next { s with phase := .scan }) ∧
    (s.st = .release → condWord s &&& 0x70 = 0x60 ∧ decode (fetch s) = .ok .releaseSkip ∧ exec .releaseSkip s = .next s ∧
      step s = .next { s with phase := .scan })

/-- R84, R92: in PRESS a matching sample that does not take the counter above `N` is counted. That the
operation is selected only then is `SelectionFollowsTheCaseTree`. -/
def Obligations.PressCountCountsTheSample : Prop :=
  ∀ s : State, s.phase = .eval → s.st = .press → s.r = s.prow → s.c = s.pcol → s.cnt + 1 ≤ s.params.N →
    condWord s &&& 0x73 = 0x32 ∧ decode (fetch s) = .ok .pressCount ∧
    exec .pressCount s = .next { s with cnt := s.cnt + 1 } ∧
    step s = .next { s with cnt := s.cnt + 1, phase := .scan }

/-- R85, R87, R92: in PRESS the matching sample that takes the counter above `N` accepts the key: in the same
evaluation the pattern of the recorded pair is written at the write index and nowhere else, the index advances
modulo 4, the counter is cleared and RELEASE entered. -/
def Obligations.PressAcceptWritesThePattern : Prop :=
  ∀ (s : State) (x : Fin 16), s.phase = .eval → s.st = .press → s.r = s.prow → s.c = s.pcol →
    s.cnt + 1 > s.params.N → keyDecode s.params s.prow s.pcol = some x →
    ∃ t : State,
      condWord s &&& 0x73 = 0x33 ∧ decode (fetch s) = .ok .pressAccept ∧
      exec .pressAccept s = .next t ∧
      t = { s with st := .release, cnt := 0, widx := t.widx, buf := t.buf } ∧
      t.widx.toNat = (s.widx.toNat + 1) % 4 ∧
      bufRead s.widx t = s.params.segtab.get x ∧
      (∀ i, i ≠ s.widx → bufRead i t = bufRead i s) ∧
      step s = .next { t with phase := .scan }

/-- R86, R141: in PRESS a sample of the recorded row that differs from the recorded column rejects the press, and only
`st` changes, whatever the counter holds (R147 (3)). -/
def Obligations.PressRejectReturnsToIdle : Prop :=
  ∀ s : State, s.phase = .eval → s.st = .press → s.r = s.prow → s.c ≠ s.pcol →
    condWord s &&& 0x72 = 0x30 ∧ decode (fetch s) = .ok .pressReject ∧
    exec .pressReject s = .next { s with st := .idle } ∧
    step s = .next { s with st := .idle, phase := .scan }

/-- R87: an evaluation that starts in PROCESS on a recorded pair with a key writes its pattern at the write index and
nowhere else, advances the index modulo 4, clears the counter and enters RELEASE, whatever the sample. -/
def Obligations.ProcessWritesThePattern : Prop :=
  ∀ (s : State) (x : Fin 16), s.phase = .eval → s.st = .process → keyDecode s.params s.prow s.pcol = some x →
    ∃ t : State,
      condWord s &&& 0x60 = 0x40 ∧ decode (fetch s) = .ok .process ∧
      exec .process s = .next t ∧
      t = { s with st := .release, cnt := 0, widx := t.widx, buf := t.buf } ∧
      t.widx.toNat = (s.widx.toNat + 1) % 4 ∧
      bufRead s.widx t = s.params.segtab.get x ∧
      (∀ i, i ≠ s.widx → bufRead i t = bufRead i s) ∧
      step s = .next { t with phase := .scan }

/-- R104, R143 (the spec's model-only fault, D23; log entry 12): PROCESS, and PRESS_ACCEPT that chains it, stop exactly
where the recorded pair has no layout entry. -/
def Obligations.SentinelPairFaultsAtProcess : Prop :=
  ∀ s : State,
    (keyDecode s.params s.prow s.pcol = none →
      exec .process s = .fault .sentinelAtProcess ∧ exec .pressAccept s = .fault .sentinelAtProcess) ∧
    (keyDecode s.params s.prow s.pcol ≠ none →
      (∃ t, exec .process s = .next t) ∧ ∃ t, exec .pressAccept s = .next t)

/-- R89: in RELEASE an empty sample of the recorded row that does not take the counter above `N` is counted. -/
def Obligations.ReleaseCountCountsTheEmptySample : Prop :=
  ∀ s : State, s.phase = .eval → s.st = .release → s.r = s.prow → s.c = 0b0000 → s.cnt + 1 ≤ s.params.N →
    condWord s &&& 0x75 = 0x70 ∧ decode (fetch s) = .ok .releaseCount ∧
    exec .releaseCount s = .next { s with cnt := s.cnt + 1 } ∧
    step s = .next { s with cnt := s.cnt + 1, phase := .scan }

/-- R90: in RELEASE the empty sample of the recorded row that takes the counter above `N` confirms the release; the
counter keeps its value. -/
def Obligations.ReleaseDoneReturnsToIdle : Prop :=
  ∀ s : State, s.phase = .eval → s.st = .release → s.r = s.prow → s.c = 0b0000 → s.cnt + 1 > s.params.N →
    condWord s &&& 0x75 = 0x71 ∧ decode (fetch s) = .ok .releaseDone ∧
    exec .releaseDone s = .next { s with cnt := s.cnt + 1, st := .idle } ∧
    step s = .next { s with cnt := s.cnt + 1, st := .idle, phase := .scan }

/-- R91, R142: in RELEASE a sample of the recorded row with any column asserted clears the counter, and only the counter
changes, whatever it held (R147 (4)). -/
def Obligations.ReleaseHoldClearsTheCounter : Prop :=
  ∀ s : State, s.phase = .eval → s.st = .release → s.r = s.prow → s.c ≠ 0b0000 →
    condWord s &&& 0x74 = 0x74 ∧ decode (fetch s) = .ok .releaseHold ∧
    exec .releaseHold s = .next { s with cnt := 0 } ∧
    step s = .next { s with cnt := 0, phase := .scan }

/-! ### Who writes what -/

/-- R18, R20, R25: SCAN alone writes the scan index and the output latches (and the operands and the input of the tick),
and writes no FSM register and no buffer entry; so an output latch holds its value until the next SCAN. -/
def Obligations.EveryItemHasOneWriter : Prop :=
  ∀ (i : Instr) (s t : State), exec i s = .next t →
    ((∀ kk, i ≠ .scan kk) →
      t.k = s.k ∧ t.sel = s.sel ∧ t.seg = s.seg ∧ t.r = s.r ∧ t.c = s.c ∧
      t.samples = s.samples ∧ t.drawn = s.drawn) ∧
    (∀ kk, i = .scan kk →
      t.st = s.st ∧ t.prow = s.prow ∧ t.pcol = s.pcol ∧ t.cnt = s.cnt ∧ t.widx = s.widx ∧
      ∀ j, bufRead j t = bufRead j s)

/-- R33: BUF is the only writable space: the tables never change, only PROCESS (and PRESS_ACCEPT, which runs it) writes
BUF, one entry, the one at the write index, and no FSM operation writes a port. -/
def Obligations.BufferIsTheOnlyWritableSpace : Prop :=
  ∀ (i : Instr) (s t : State), exec i s = .next t →
    t.params = s.params ∧
    (∀ j, j ≠ s.widx → bufRead j t = bufRead j s) ∧
    (i ≠ .process → i ≠ .pressAccept → t.widx = s.widx ∧ ∀ j, bufRead j t = bufRead j s) ∧
    ((∀ kk, i ≠ .scan kk) → t.sel = s.sel ∧ t.seg = s.seg)

/-- R12, R13: the recorded row and column are written by IDLE_ARM only, with the tick's operands. -/
def Obligations.RecordedKeyWrittenOnlyByIdleArm : Prop :=
  ∀ (i : Instr) (s t : State), exec i s = .next t →
    (i ≠ .idleArm → t.prow = s.prow ∧ t.pcol = s.pcol) ∧
    (i = .idleArm → t.prow = s.r ∧ t.pcol = s.c)

/-- R32: no operation writes the tables, and they have the same contents at every tick of every run. -/
def Obligations.TablesAreImmutable : Prop :=
  (∀ (i : Instr) (s t : State), exec i s = .next t →
    (∀ r c, keyTab t.params r c = keyTab s.params r c) ∧ (∀ y, segEncode t.params y = segEncode s.params y)) ∧
  (∀ (n : Nat) (s t : State), ticks n s = .next t →
    (∀ r c, keyTab t.params r c = keyTab s.params r c) ∧ ∀ y, segEncode t.params y = segEncode s.params y)

/-! ### Invariants -/

/-- R121, R122, R123, R128: every step keeps the invariant of the block. -/
def Obligations.StepKeepsInvariant : Prop :=
  ∀ s t : State, s.Inv → step s = .next t → t.Inv

/-- The invariant holds right after reset, whatever the parameters and the input. -/
def Obligations.ResetMeetsInvariant : Prop :=
  State.reset.Inv ∧ ∀ (P : Params) (cs : List Column) (n : Nat), (State.resetWith P cs n).Inv

/-- R96, R104, R117: from a state with the invariant every step has a next state: no fault and no refusal. -/
def Obligations.NoStepStopsUnderTheInvariant : Prop :=
  ∀ s : State, s.Inv → ∃ t, step s = .next t

/-- R72, R123: every step keeps the agreement of the select latch and the row operand with the scan index. -/
def Obligations.StepKeepsSlotInvariant : Prop :=
  ∀ s t : State, s.SlotInv → step s = .next t → t.SlotInv

/-- The slot invariant holds right after reset. -/
def Obligations.ResetMeetsSlotInvariant : Prop :=
  State.reset.SlotInv ∧ ∀ (P : Params) (cs : List Column), (State.resetWith P cs 0).SlotInv

/-- R117, R124, R134: a run of any number of ticks from a state with the invariant completes, keeps the invariant, and
serves one slot a tick. -/
def Obligations.RunsOfTicksComplete : Prop :=
  ∀ (n : Nat) (s : State), s.Inv → s.phase = .scan →
    ∃ t, ticks n s = .next t ∧ t.Inv ∧ t.phase = .scan ∧ t.k.toNat = (s.k.toNat + n) % 4 ∧ t.drawn = s.drawn + n

/-- R14, R128: a counter register of any width that can hold `N + 1` never wraps. -/
def Obligations.CounterFitsInAWideEnoughRegister : Prop :=
  ∀ (s t : State) (w : Nat), s.Inv → s.params.N + 2 ≤ 2 ^ w → step s = .next t →
    (BitVec.ofNat w t.cnt).toNat = t.cnt

/-! ### Reset -/

/-- R24, R160: the reset state. The values of `k`, `prow`, `pcol`, `cnt`, `BUF`, `SEL` and `SEG` are the spec's own choice
(D16; log entry 8), those of the model's own fields are the model's (log entry 9). -/
def Obligations.ResetState : Prop :=
  State.reset.st = .idle ∧ State.reset.widx = 0 ∧ State.reset.k = 0 ∧ State.reset.prow = 0 ∧
  State.reset.pcol = 0b0000 ∧ State.reset.cnt = 0 ∧
  (∀ i, bufRead i State.reset = segEncode State.reset.params none ∧ bufRead i State.reset = 0xFF) ∧
  State.reset.sel = 0b1111 ∧ State.reset.seg = 0xFF ∧ State.reset.phase = .scan

/-- R160, R162: reset applied in any state gives the reset state of the block: no state of it survives. -/
def Obligations.ResetErasesEveryState : Prop :=
  ∀ s : State,
    (applyReset s).st = .idle ∧ (applyReset s).widx = 0 ∧ (applyReset s).k = 0 ∧ (applyReset s).prow = 0 ∧
    (applyReset s).pcol = 0b0000 ∧ (applyReset s).cnt = 0 ∧ (∀ i, bufRead i (applyReset s) = 0xFF) ∧
    (applyReset s).sel = 0b1111 ∧ (applyReset s).seg = 0xFF ∧ (applyReset s).phase = .scan ∧
    (applyReset s).params = s.params ∧ (applyReset s).samples = s.samples

/-- R24 (last paragraph): in IDLE at the start of a tick, what `prow`, `pcol` and `cnt` hold (and the operands of the
tick before) cannot be observed: two states that differ in nothing else show the same outputs and accept the same
keys for ever. -/
def Obligations.StaleRegistersAreUnobservableInIdle : Prop :=
  ∀ (n : Nat) (s t : State) (a : Index) (b : Column) (m : Nat) (r : Index) (c : Column),
    s.phase = .scan → s.st = .idle → ticks n s = .next t →
    ∃ u, ticks n { s with prow := a, pcol := b, cnt := m, r := r, c := c } = .next u ∧
      u.sel = t.sel ∧ u.seg = t.seg ∧ u.k = t.k ∧ u.st = t.st ∧ u.widx = t.widx ∧
      ∀ i, bufRead i u = bufRead i t

/-! ### Runs of ticks -/

/-- R73, R78: after any number of ticks, the next tick selects the next digit in the rotation `k, k+1, k+2, k+3` and drives
the pattern that its buffer entry held before the tick. -/
def Obligations.EveryTickShowsTheNextDigit : Prop :=
  ∀ (n : Nat) (s t u : State), s.phase = .scan → ticks n s = .next t → tick t = .next u →
    ∃ i : Index, i.toNat = (s.k.toNat + n) % 4 ∧ u.sel = onecold4 i ∧ u.seg = bufRead i t

/-- R93: while a key is pending, a tick of another row changes nothing but what its SCAN writes, whatever the sample. -/
def Obligations.OtherRowsHaveNoInfluence : Prop :=
  ∀ (s : State) (x : Column) (xs : List Column), s.phase = .scan → keyPending s = true → s.k ≠ s.prow →
    tick { s with samples := x :: xs } =
      .next { s with sel := onecold4 s.k, seg := bufRead s.k s, k := s.k + 1, r := s.k, c := x,
                     samples := xs, drawn := s.drawn + 1 }

/-- R133 (press): from IDLE, a key seen in the arming tick and in the next `N + 1` samples of its row is accepted in the
tick `4 (N + 1)` after the arming tick and not before, whatever the other rows show. The count rests on
the spec's decisions D10 to D12 (log entry 14). -/
def Obligations.HeldKeyIsAcceptedOnTime : Prop :=
  ∀ (s : State) (v : Column) (x : Fin 16), s.phase = .scan → s.st = .idle →
    keyDecode s.params s.k v = some x →
    (∀ j, j ≤ s.params.N + 1 → s.samples[4 * j]? = some v) →
    ∃ t u : State,
      ticks (4 * (s.params.N + 1)) s = .next t ∧
      t.st = .press ∧ t.widx = s.widx ∧ (∀ i, bufRead i t = bufRead i s) ∧
      tick t = .next u ∧
      u.st = .release ∧ u.cnt = 0 ∧ u.widx.toNat = (s.widx.toNat + 1) % 4 ∧
      bufRead s.widx u = s.params.segtab.get x ∧ (∀ i, i ≠ s.widx → bufRead i u = bufRead i s)

/-- R92, R131: a press with exactly `N` counted samples is not accepted: after them the counter is `N` and the state still
PRESS, and a different next sample of the row rejects it with nothing appended. That the arming sample is not
counted is decided by the spec (D11, D12; log entry 14, DESIGN CHOICE). -/
def Obligations.PressOfNCountedSamplesIsRejected : Prop :=
  ∀ (s : State) (v y : Column) (x : Fin 16), s.phase = .scan → s.st = .idle →
    keyDecode s.params s.k v = some x →
    (∀ j, j ≤ s.params.N → s.samples[4 * j]? = some v) →
    s.samples[4 * (s.params.N + 1)]? = some y → y ≠ v →
    ∃ t u : State,
      ticks (4 * s.params.N + 1) s = .next t ∧ t.st = .press ∧ t.cnt = s.params.N ∧
      ticks (4 * (s.params.N + 1) + 1) s = .next u ∧ u.st = .idle ∧ u.widx = s.widx ∧
      ∀ i, bufRead i u = bufRead i s

/-- R90, R133 (release): in RELEASE with the counter at 0, from a tick of the recorded row on, `N + 1` consecutive empty
samples of that row confirm the release in the tick `4 N` after the first and not before. -/
def Obligations.ReleaseIsConfirmedOnTime : Prop :=
  ∀ s : State, s.phase = .scan → s.st = .release → s.k = s.prow → s.cnt = 0 →
    (∀ j, j ≤ s.params.N → s.samples[4 * j]? = some 0b0000) →
    ∃ t u : State,
      ticks (4 * s.params.N) s = .next t ∧ t.st = .release ∧ t.cnt = s.params.N ∧
      tick t = .next u ∧ u.st = .idle ∧ u.cnt = s.params.N + 1 ∧ u.widx = s.widx ∧
      ∀ i, bufRead i u = bufRead i s

/-- R126: a clean press and release appends exactly one symbol: the key in the arming sample and in the next `N + 1`
samples of its row, any `m` non-zero samples after them, then `N + 1` empty ones. The other rows have no influence.
The count rests on the spec's decisions D11 and D12 (log entry 14). -/
def Obligations.CleanPressAndReleaseAppendsOneSymbol : Prop :=
  ∀ (s : State) (v : Column) (x : Fin 16) (m : Nat), s.phase = .scan → s.st = .idle →
    keyDecode s.params s.k v = some x →
    (∀ j, j ≤ s.params.N + 1 → s.samples[4 * j]? = some v) →
    (∀ j, s.params.N + 1 < j → j ≤ s.params.N + 1 + m → ∃ y, s.samples[4 * j]? = some y ∧ y ≠ 0b0000) →
    (∀ j, s.params.N + 1 + m < j → j ≤ 2 * (s.params.N + 1) + m → s.samples[4 * j]? = some 0b0000) →
    ∃ t : State,
      ticks (4 * (2 * (s.params.N + 1) + m) + 1) s = .next t ∧
      t.st = .idle ∧ t.widx.toNat = (s.widx.toNat + 1) % 4 ∧
      bufRead s.widx t = s.params.segtab.get x ∧ ∀ i, i ≠ s.widx → bufRead i t = bufRead i s

/-- R149: a key held for ever keeps the machine in RELEASE, and the ticks and the display go on. -/
def Obligations.HeldKeyKeepsTheMachineInRelease : Prop :=
  ∀ (n : Nat) (s : State), s.phase = .scan → s.st = .release → s.k = s.prow →
    (∀ j, j < n → ∃ y, s.samples[4 * j]? = some y ∧ y ≠ 0b0000) →
    ∃ t, ticks (4 * n) s = .next t ∧ t.st = .release ∧ t.k = s.k ∧ t.prow = s.prow ∧ t.widx = s.widx ∧
      t.drawn = s.drawn + 4 * n ∧ ∀ i, bufRead i t = bufRead i s

/-- R94, R132: in IDLE the first tick whose sample is a valid key of its row is armed, whatever the rows after it show:
after `m` ticks without a valid key the key of tick `m` is recorded. -/
def Obligations.FirstValidKeyInScanOrderIsArmed : Prop :=
  ∀ (s : State) (m : Nat) (v : Column) (x : Fin 16), s.phase = .scan → s.st = .idle →
    (∀ j, j < m → ∃ y, s.samples[j]? = some y ∧ keyDecode s.params (s.k + BitVec.ofNat 2 j) y = none) →
    s.samples[m]? = some v → keyDecode s.params (s.k + BitVec.ofNat 2 m) v = some x →
    ∃ t, ticks (m + 1) s = .next t ∧ t.st = .press ∧ t.prow = s.k + BitVec.ofNat 2 m ∧ t.pcol = v ∧ t.cnt = 0 ∧
      t.widx = s.widx ∧ ∀ i, bufRead i t = bufRead i s

/-- R40, R175: the pattern accepted in a tick is not on the segments in that tick, even where the tick shows the entry
it is written to, and is shown `d` ticks later, 1 to 4, when the scan next reaches its digit. -/
def Obligations.AcceptedPatternIsShownWithinFourTicks : Prop :=
  ∀ (s : State) (x : Fin 16) (xs : List Column), s.phase = .scan → s.st = .press → s.k = s.prow →
    s.samples = s.pcol :: xs → s.cnt + 1 > s.params.N → keyDecode s.params s.prow s.pcol = some x →
    ∃ t : State, tick s = .next t ∧ t.seg = bufRead s.k s ∧ bufRead s.widx t = s.params.segtab.get x ∧
      ∀ d, 1 ≤ d → d ≤ 4 → (s.k.toNat + d) % 4 = s.widx.toNat →
        ∃ u, ticks d t = .next u ∧ u.sel = onecold4 s.widx ∧ u.seg = s.params.segtab.get x

/-- R96: the machine always has a path back to IDLE: from every state with the invariant some samples lead there. -/
def Obligations.IdleIsAlwaysReachable : Prop :=
  ∀ s : State, s.Inv → s.phase = .scan →
    ∃ (cs : List Column) (n : Nat) (t : State), ticks n { s with samples := cs } = .next t ∧ t.st = .idle

/-- R61: what a GHOST sample does: it never arms, it rejects a press of its row and it holds a release of its row. -/
def Obligations.GhostSamplesAreNeverAccepted : Prop :=
  ∀ s : State, s.Inv → s.phase = .eval → columnClass s.c = .ghost →
    (s.st = .idle → exec .idleStay s = .next s ∧ step s = .next { s with phase := .scan }) ∧
    (s.st = .press → s.r = s.prow → step s = .next { s with st := .idle, phase := .scan }) ∧
    (s.st = .release → s.r = s.prow → step s = .next { s with cnt := 0, phase := .scan })

/-! ### Tables and buffer -/

/-- R100: the entries of the Keypad Layout Table, for any KEYMAP of the model; an entry is a symbol exactly at a SINGLE
column. That all sixteen positions hold a symbol, on which the "exactly" rests, is the spec's own reading (D6; log entry 24),
and so is the sentinel at the columns 9 to 15 (D8; log entry 13). -/
def Obligations.LayoutTableEntries : Prop :=
  ∀ (P : Params) (r : Index) (c : Column),
    keyTab P r 0b0001 = some (keymapAt P r 0) ∧
    keyTab P r 0b0010 = some (keymapAt P r 1) ∧
    keyTab P r 0b0100 = some (keymapAt P r 2) ∧
    keyTab P r 0b1000 = some (keymapAt P r 3) ∧
    (keyTab P r c ≠ none ↔ ∃ j, columnClass c = .single j)

/-- R104, R110: decoding a valid pair is the composition of the two tables, and its inner value is a symbol identity; the
symbol code of every entry is in 0..16, and the blank entry lights no segment (R102). -/
def Obligations.DecodeIsTheCompositionOfTheTables : Prop :=
  ∀ (P : Params) (r : Index) (c : Column),
    (∀ x, keyDecode P r c = some x →
      decodePattern P r c = some (P.segtab.get x) ∧ (symbolCode (some x)).toNat = x.val ∧ x.val ≤ 15) ∧
    (keyDecode P r c = none → decodePattern P r c = none) ∧
    (symbolCode (keyDecode P r c)).toNat ≤ 16 ∧ segEncode P none = 0xFF

/-- R107: BufPush writes the entry at the write index and no other, then advances the index modulo 4, and changes nothing
else. -/
def Obligations.BufPushWritesThenAdvances : Prop :=
  ∀ (pat : Byte) (s : State),
    bufRead s.widx (bufPush pat s) = pat ∧
    (∀ i, i ≠ s.widx → bufRead i (bufPush pat s) = bufRead i s) ∧
    (bufPush pat s).widx.toNat = (s.widx.toNat + 1) % 4 ∧
    bufPush pat s = { s with buf := (bufPush pat s).buf, widx := (bufPush pat s).widx }

/-- R109, R111: after pushing the patterns `ps` from write index 0, the index is their number modulo 4, each entry holds
the latest pattern whose number falls on it, and an entry that none has reached holds what it held. -/
def Obligations.DisplayHoldsTheLastFourPatterns : Prop :=
  ∀ (ps : List Byte) (s : State), s.widx = 0 →
    (ps.foldl (fun u p => bufPush p u) s).widx.toNat = ps.length % 4 ∧
    (∀ (i : Index) (j : Nat) (p : Byte), ps[j]? = some p → j % 4 = i.toNat → ps.length ≤ j + 4 →
      bufRead i (ps.foldl (fun u p => bufPush p u) s) = p) ∧
    (∀ i : Index, ps.length ≤ i.toNat →
      bufRead i (ps.foldl (fun u p => bufPush p u) s) = bufRead i s)
end

