-- ==== Sys2Proof/Laws/Decode.lean ====
section
/-!
SUPPORT. The decoder on the words a fetch gives.
-/

namespace Sys2Proof.Machine

/-- Format S decodes to `SCAN` of its slot (R60). -/
theorem decode_slot (kk : Index) : decode ⟨.slot, kk.setWidth 8⟩ = .ok (.scan kk) := by
  revert kk; decide

/-- No 7-bit word is above its format, so a condition word goes through the operation map (R59). -/
theorem decode_cond (cw : CondWord) :
    decode ⟨.cond, cw.setWidth 8⟩ =
      match decodeCond cw with
      | some i => .ok i
      | none => .error .noRow := by
  revert cw; decide

/-- In IDLE the operation map looks at `vk` alone (R59). -/
theorem decodeCond_idle (rm vk nz eq th : Bool) :
    decodeCond (packCond 0b00 rm vk nz eq th) = some (if vk then .idleArm else .idleStay) := by
  revert rm vk nz eq th; decide

/-- In PRESS it looks at `rm`, then `eq`, then `th` (R59). -/
theorem decodeCond_press (rm vk nz eq th : Bool) :
    decodeCond (packCond 0b01 rm vk nz eq th) =
      some (if !rm then .pressSkip else if !eq then .pressReject else if th then .pressAccept else .pressCount) := by
  revert rm vk nz eq th; decide

/-- In PROCESS it looks at nothing else (R59). -/
theorem decodeCond_process (rm vk nz eq th : Bool) :
    decodeCond (packCond 0b10 rm vk nz eq th) = some .process := by
  revert rm vk nz eq th; decide

/-- In RELEASE it looks at `rm`, then `nz`, then `th` (R59). -/
theorem decodeCond_release (rm vk nz eq th : Bool) :
    decodeCond (packCond 0b11 rm vk nz eq th) =
      some (if !rm then .releaseSkip else if nz then .releaseHold else if th then .releaseDone else .releaseCount) := by
  revert rm vk nz eq th; decide

end Sys2Proof.Machine
end

