-- ==== Sys2Proof/Laws/Memory.lean ====
section
/-!
SUPPORT. The laws of the Display Buffer: a read after a write, and the canonical form kept by every operation.
-/

namespace Sys2Proof.Machine

@[simp] theorem Memory.read_nil (a : Nat) : Memory.read [] a = Memory.unlisted := rfl

@[simp] theorem Memory.read_cons (b a : Nat) (v : Byte) (m : Memory) :
    Memory.read ((b, v) :: m) a = if b = a then v else Memory.read m a := rfl

@[simp] theorem Memory.erase_nil (a : Nat) : Memory.erase [] a = [] := rfl

theorem Memory.erase_cons (x : Host.Cell) (m : Memory) (a : Nat) :
    Memory.erase (x :: m) a = if x.1 = a then Memory.erase m a else x :: Memory.erase m a := by
  by_cases h : x.1 = a <;> simp [Memory.erase, h]

theorem Memory.read_erase (m : Memory) (a b : Nat) :
    (m.erase a).read b = if a = b then Memory.unlisted else m.read b := by
  induction m with
  | nil => simp
  | cons x m ih =>
    rw [Memory.erase_cons]
    split <;> simp_all [Memory.read]
    grind

theorem Memory.read_insert_erased (m : Memory) (a b : Nat) (v : Byte) :
    ((m.erase a).insert a v).read b = if a = b then v else m.read b := by
  induction m with
  | nil => simp [Memory.insert]
  | cons x m ih =>
    have hm := Memory.read_erase m a b
    rw [Memory.erase_cons]
    split
    · rw [ih]
      obtain ⟨y, w⟩ := x
      simp_all [Memory.read]
    · simp only [Memory.insert]
      split
      · simp_all [Memory.read]
      · simp_all [Memory.read]
        grind

/-- A read after a write: the written byte at the written index, and every other index as before. -/
theorem Memory.read_write (m : Memory) (a b : Nat) (v : Byte) :
    (m.write a v).read b = if a = b then v else m.read b := by
  unfold Memory.write
  split
  · rename_i h; rw [Memory.read_erase, h]
  · exact Memory.read_insert_erased m a b v

theorem Memory.wf_iff (m : Memory) :
    m.wf = true ↔ m.Pairwise (fun x y => x.1 < y.1) ∧ ∀ x ∈ m, x.1 < 4 ∧ x.2 ≠ Memory.unlisted := by
  simp [Memory.wf]

@[simp] theorem Memory.wf_nil : Memory.wf [] = true := rfl

theorem Memory.mem_insert (m : Memory) (a : Nat) (v : Byte) (x : Host.Cell) :
    x ∈ m.insert a v ↔ x = (a, v) ∨ x ∈ m := by
  induction m with
  | nil => simp [Memory.insert]
  | cons y m ih =>
    simp only [Memory.insert]
    split
    · simp
    · simp only [List.mem_cons, ih]; grind

theorem Memory.wf_erase (m : Memory) (a : Nat) (h : m.wf = true) : (m.erase a).wf = true := by
  rw [Memory.wf_iff] at *
  exact ⟨h.1.filter _, fun x hx => h.2 x (List.mem_of_mem_filter hx)⟩

theorem Memory.pairwise_insert (m : Memory) (a : Nat) (v : Byte)
    (h : m.Pairwise (fun x y => x.1 < y.1)) (ha : ∀ x ∈ m, x.1 ≠ a) :
    (m.insert a v).Pairwise (fun x y => x.1 < y.1) := by
  induction m with
  | nil => simp [Memory.insert]
  | cons y m ih =>
    have hy : y.1 ≠ a := ha y (by simp)
    have hm := ih h.of_cons (fun x hx => ha x (by simp [hx]))
    rw [List.pairwise_cons] at h
    simp only [Memory.insert]
    split
    · rename_i hlt
      rw [List.pairwise_cons, List.pairwise_cons]
      refine ⟨fun x hx => ?_, h⟩
      rcases List.mem_cons.1 hx with rfl | hx
      · exact hlt
      · exact lt_trans hlt (h.1 x hx)
    · rename_i hge
      rw [List.pairwise_cons]
      refine ⟨fun x hx => ?_, hm⟩
      rcases (Memory.mem_insert m a v x).1 hx with rfl | hx
      · show y.1 < a; omega
      · exact h.1 x hx

/-- A write keeps the canonical form. -/
theorem Memory.wf_write (m : Memory) (a : Nat) (v : Byte) (ha : a < 4) (h : m.wf = true) :
    (m.write a v).wf = true := by
  have he := Memory.wf_erase m a h
  unfold Memory.write
  split
  · exact he
  · rename_i hv
    rw [Memory.wf_iff] at he ⊢
    refine ⟨Memory.pairwise_insert _ a v he.1 (fun x hx => ?_), fun x hx => ?_⟩
    · simpa using (List.mem_filter.1 hx).2
    · rcases (Memory.mem_insert _ a v x).1 hx with rfl | hx
      · exact ⟨ha, hv⟩
      · exact he.2 x hx

theorem Memory.read_of_lt_head (m : Memory) (a : Nat) (h : ∀ x ∈ m, a < x.1) : m.read a = Memory.unlisted := by
  induction m with
  | nil => rfl
  | cons x m ih =>
    have hx : a < x.1 := h x (by simp)
    simp only [Memory.read]
    rw [if_neg (by omega)]
    exact ih (fun y hy => h y (by simp [hy]))

/-- In the canonical form, equal contents are equal data. -/
theorem Memory.ext_of_wf (m n : Memory) (hm : m.wf = true) (hn : n.wf = true)
    (h : ∀ a, m.read a = n.read a) : m = n := by
  rw [Memory.wf_iff] at hm hn
  induction m generalizing n with
  | nil =>
    cases n with
    | nil => rfl
    | cons y n =>
      have := h y.1
      have hy := (hn.2 y (by simp)).2
      simp [Memory.read] at this
      exact absurd this.symm hy
  | cons x m ih =>
    cases n with
    | nil =>
      have := h x.1
      have hx := (hm.2 x (by simp)).2
      simp [Memory.read] at this
      exact absurd this hx
    | cons y n =>
      obtain ⟨pm, vm⟩ := hm
      obtain ⟨pn, vn⟩ := hn
      rw [List.pairwise_cons] at pm pn
      have hxy : x.1 = y.1 := by
        rcases Nat.lt_trichotomy x.1 y.1 with hlt | heq | hgt
        · have := h x.1
          rw [Memory.read_of_lt_head (y :: n) x.1 (by
            intro z hz
            rcases List.mem_cons.1 hz with rfl | hz
            · exact hlt
            · exact lt_trans hlt (pn.1 z hz))] at this
          simp [Memory.read] at this
          exact absurd this (vm x (by simp)).2
        · exact heq
        · have := h y.1
          rw [Memory.read_of_lt_head (x :: m) y.1 (by
            intro z hz
            rcases List.mem_cons.1 hz with rfl | hz
            · exact hgt
            · exact lt_trans hgt (pm.1 z hz))] at this
          simp [Memory.read] at this
          exact absurd this.symm (vn y (by simp)).2
      have hv : x.2 = y.2 := by
        have := h x.1
        simpa [Memory.read, hxy] using this
      have hh : x = y := Prod.ext hxy hv
      subst hh
      congr 1
      refine ih n ⟨pm.2, fun z hz => vm z (by simp [hz])⟩ ⟨pn.2, fun z hz => vn z (by simp [hz])⟩ (fun a => ?_)
      by_cases hax : x.1 = a
      · subst hax
        rw [Memory.read_of_lt_head m _ pm.1, Memory.read_of_lt_head n _ pn.1]
      · have := h a
        simpa [Memory.read, hax] using this

end Sys2Proof.Machine
end

