-- ==== Sys2Proof/Laws/State.lean ====
section
/-!
SUPPORT. What each register write changes and leaves, one lemma per field per update.
-/

namespace Sys2Proof.Machine
namespace State

@[simp] theorem setSt_st (x : Fsm) (s : State) : (s.setSt x).st = x := rfl
@[simp] theorem setSt_prow (x : Fsm) (s : State) : (s.setSt x).prow = s.prow := rfl
@[simp] theorem setSt_pcol (x : Fsm) (s : State) : (s.setSt x).pcol = s.pcol := rfl
@[simp] theorem setSt_cnt (x : Fsm) (s : State) : (s.setSt x).cnt = s.cnt := rfl
@[simp] theorem setSt_widx (x : Fsm) (s : State) : (s.setSt x).widx = s.widx := rfl
@[simp] theorem setSt_k (x : Fsm) (s : State) : (s.setSt x).k = s.k := rfl
@[simp] theorem setSt_buf (x : Fsm) (s : State) : (s.setSt x).buf = s.buf := rfl
@[simp] theorem setSt_sel (x : Fsm) (s : State) : (s.setSt x).sel = s.sel := rfl
@[simp] theorem setSt_seg (x : Fsm) (s : State) : (s.setSt x).seg = s.seg := rfl
@[simp] theorem setSt_phase (x : Fsm) (s : State) : (s.setSt x).phase = s.phase := rfl
@[simp] theorem setSt_r (x : Fsm) (s : State) : (s.setSt x).r = s.r := rfl
@[simp] theorem setSt_c (x : Fsm) (s : State) : (s.setSt x).c = s.c := rfl
@[simp] theorem setSt_params (x : Fsm) (s : State) : (s.setSt x).params = s.params := rfl
@[simp] theorem setSt_samples (x : Fsm) (s : State) : (s.setSt x).samples = s.samples := rfl
@[simp] theorem setSt_drawn (x : Fsm) (s : State) : (s.setSt x).drawn = s.drawn := rfl

@[simp] theorem setProw_st (x : Index) (s : State) : (s.setProw x).st = s.st := rfl
@[simp] theorem setProw_prow (x : Index) (s : State) : (s.setProw x).prow = x := rfl
@[simp] theorem setProw_pcol (x : Index) (s : State) : (s.setProw x).pcol = s.pcol := rfl
@[simp] theorem setProw_cnt (x : Index) (s : State) : (s.setProw x).cnt = s.cnt := rfl
@[simp] theorem setProw_widx (x : Index) (s : State) : (s.setProw x).widx = s.widx := rfl
@[simp] theorem setProw_k (x : Index) (s : State) : (s.setProw x).k = s.k := rfl
@[simp] theorem setProw_buf (x : Index) (s : State) : (s.setProw x).buf = s.buf := rfl
@[simp] theorem setProw_sel (x : Index) (s : State) : (s.setProw x).sel = s.sel := rfl
@[simp] theorem setProw_seg (x : Index) (s : State) : (s.setProw x).seg = s.seg := rfl
@[simp] theorem setProw_phase (x : Index) (s : State) : (s.setProw x).phase = s.phase := rfl
@[simp] theorem setProw_r (x : Index) (s : State) : (s.setProw x).r = s.r := rfl
@[simp] theorem setProw_c (x : Index) (s : State) : (s.setProw x).c = s.c := rfl
@[simp] theorem setProw_params (x : Index) (s : State) : (s.setProw x).params = s.params := rfl
@[simp] theorem setProw_samples (x : Index) (s : State) : (s.setProw x).samples = s.samples := rfl
@[simp] theorem setProw_drawn (x : Index) (s : State) : (s.setProw x).drawn = s.drawn := rfl

@[simp] theorem setPcol_st (x : Column) (s : State) : (s.setPcol x).st = s.st := rfl
@[simp] theorem setPcol_prow (x : Column) (s : State) : (s.setPcol x).prow = s.prow := rfl
@[simp] theorem setPcol_pcol (x : Column) (s : State) : (s.setPcol x).pcol = x := rfl
@[simp] theorem setPcol_cnt (x : Column) (s : State) : (s.setPcol x).cnt = s.cnt := rfl
@[simp] theorem setPcol_widx (x : Column) (s : State) : (s.setPcol x).widx = s.widx := rfl
@[simp] theorem setPcol_k (x : Column) (s : State) : (s.setPcol x).k = s.k := rfl
@[simp] theorem setPcol_buf (x : Column) (s : State) : (s.setPcol x).buf = s.buf := rfl
@[simp] theorem setPcol_sel (x : Column) (s : State) : (s.setPcol x).sel = s.sel := rfl
@[simp] theorem setPcol_seg (x : Column) (s : State) : (s.setPcol x).seg = s.seg := rfl
@[simp] theorem setPcol_phase (x : Column) (s : State) : (s.setPcol x).phase = s.phase := rfl
@[simp] theorem setPcol_r (x : Column) (s : State) : (s.setPcol x).r = s.r := rfl
@[simp] theorem setPcol_c (x : Column) (s : State) : (s.setPcol x).c = s.c := rfl
@[simp] theorem setPcol_params (x : Column) (s : State) : (s.setPcol x).params = s.params := rfl
@[simp] theorem setPcol_samples (x : Column) (s : State) : (s.setPcol x).samples = s.samples := rfl
@[simp] theorem setPcol_drawn (x : Column) (s : State) : (s.setPcol x).drawn = s.drawn := rfl

@[simp] theorem setCnt_st (x : Nat) (s : State) : (s.setCnt x).st = s.st := rfl
@[simp] theorem setCnt_prow (x : Nat) (s : State) : (s.setCnt x).prow = s.prow := rfl
@[simp] theorem setCnt_pcol (x : Nat) (s : State) : (s.setCnt x).pcol = s.pcol := rfl
@[simp] theorem setCnt_cnt (x : Nat) (s : State) : (s.setCnt x).cnt = x := rfl
@[simp] theorem setCnt_widx (x : Nat) (s : State) : (s.setCnt x).widx = s.widx := rfl
@[simp] theorem setCnt_k (x : Nat) (s : State) : (s.setCnt x).k = s.k := rfl
@[simp] theorem setCnt_buf (x : Nat) (s : State) : (s.setCnt x).buf = s.buf := rfl
@[simp] theorem setCnt_sel (x : Nat) (s : State) : (s.setCnt x).sel = s.sel := rfl
@[simp] theorem setCnt_seg (x : Nat) (s : State) : (s.setCnt x).seg = s.seg := rfl
@[simp] theorem setCnt_phase (x : Nat) (s : State) : (s.setCnt x).phase = s.phase := rfl
@[simp] theorem setCnt_r (x : Nat) (s : State) : (s.setCnt x).r = s.r := rfl
@[simp] theorem setCnt_c (x : Nat) (s : State) : (s.setCnt x).c = s.c := rfl
@[simp] theorem setCnt_params (x : Nat) (s : State) : (s.setCnt x).params = s.params := rfl
@[simp] theorem setCnt_samples (x : Nat) (s : State) : (s.setCnt x).samples = s.samples := rfl
@[simp] theorem setCnt_drawn (x : Nat) (s : State) : (s.setCnt x).drawn = s.drawn := rfl

@[simp] theorem setWidx_st (x : Index) (s : State) : (s.setWidx x).st = s.st := rfl
@[simp] theorem setWidx_prow (x : Index) (s : State) : (s.setWidx x).prow = s.prow := rfl
@[simp] theorem setWidx_pcol (x : Index) (s : State) : (s.setWidx x).pcol = s.pcol := rfl
@[simp] theorem setWidx_cnt (x : Index) (s : State) : (s.setWidx x).cnt = s.cnt := rfl
@[simp] theorem setWidx_widx (x : Index) (s : State) : (s.setWidx x).widx = x := rfl
@[simp] theorem setWidx_k (x : Index) (s : State) : (s.setWidx x).k = s.k := rfl
@[simp] theorem setWidx_buf (x : Index) (s : State) : (s.setWidx x).buf = s.buf := rfl
@[simp] theorem setWidx_sel (x : Index) (s : State) : (s.setWidx x).sel = s.sel := rfl
@[simp] theorem setWidx_seg (x : Index) (s : State) : (s.setWidx x).seg = s.seg := rfl
@[simp] theorem setWidx_phase (x : Index) (s : State) : (s.setWidx x).phase = s.phase := rfl
@[simp] theorem setWidx_r (x : Index) (s : State) : (s.setWidx x).r = s.r := rfl
@[simp] theorem setWidx_c (x : Index) (s : State) : (s.setWidx x).c = s.c := rfl
@[simp] theorem setWidx_params (x : Index) (s : State) : (s.setWidx x).params = s.params := rfl
@[simp] theorem setWidx_samples (x : Index) (s : State) : (s.setWidx x).samples = s.samples := rfl
@[simp] theorem setWidx_drawn (x : Index) (s : State) : (s.setWidx x).drawn = s.drawn := rfl

@[simp] theorem setK_st (x : Index) (s : State) : (s.setK x).st = s.st := rfl
@[simp] theorem setK_prow (x : Index) (s : State) : (s.setK x).prow = s.prow := rfl
@[simp] theorem setK_pcol (x : Index) (s : State) : (s.setK x).pcol = s.pcol := rfl
@[simp] theorem setK_cnt (x : Index) (s : State) : (s.setK x).cnt = s.cnt := rfl
@[simp] theorem setK_widx (x : Index) (s : State) : (s.setK x).widx = s.widx := rfl
@[simp] theorem setK_k (x : Index) (s : State) : (s.setK x).k = x := rfl
@[simp] theorem setK_buf (x : Index) (s : State) : (s.setK x).buf = s.buf := rfl
@[simp] theorem setK_sel (x : Index) (s : State) : (s.setK x).sel = s.sel := rfl
@[simp] theorem setK_seg (x : Index) (s : State) : (s.setK x).seg = s.seg := rfl
@[simp] theorem setK_phase (x : Index) (s : State) : (s.setK x).phase = s.phase := rfl
@[simp] theorem setK_r (x : Index) (s : State) : (s.setK x).r = s.r := rfl
@[simp] theorem setK_c (x : Index) (s : State) : (s.setK x).c = s.c := rfl
@[simp] theorem setK_params (x : Index) (s : State) : (s.setK x).params = s.params := rfl
@[simp] theorem setK_samples (x : Index) (s : State) : (s.setK x).samples = s.samples := rfl
@[simp] theorem setK_drawn (x : Index) (s : State) : (s.setK x).drawn = s.drawn := rfl

@[simp] theorem setBuf_st (x : Memory) (s : State) : (s.setBuf x).st = s.st := rfl
@[simp] theorem setBuf_prow (x : Memory) (s : State) : (s.setBuf x).prow = s.prow := rfl
@[simp] theorem setBuf_pcol (x : Memory) (s : State) : (s.setBuf x).pcol = s.pcol := rfl
@[simp] theorem setBuf_cnt (x : Memory) (s : State) : (s.setBuf x).cnt = s.cnt := rfl
@[simp] theorem setBuf_widx (x : Memory) (s : State) : (s.setBuf x).widx = s.widx := rfl
@[simp] theorem setBuf_k (x : Memory) (s : State) : (s.setBuf x).k = s.k := rfl
@[simp] theorem setBuf_buf (x : Memory) (s : State) : (s.setBuf x).buf = x := rfl
@[simp] theorem setBuf_sel (x : Memory) (s : State) : (s.setBuf x).sel = s.sel := rfl
@[simp] theorem setBuf_seg (x : Memory) (s : State) : (s.setBuf x).seg = s.seg := rfl
@[simp] theorem setBuf_phase (x : Memory) (s : State) : (s.setBuf x).phase = s.phase := rfl
@[simp] theorem setBuf_r (x : Memory) (s : State) : (s.setBuf x).r = s.r := rfl
@[simp] theorem setBuf_c (x : Memory) (s : State) : (s.setBuf x).c = s.c := rfl
@[simp] theorem setBuf_params (x : Memory) (s : State) : (s.setBuf x).params = s.params := rfl
@[simp] theorem setBuf_samples (x : Memory) (s : State) : (s.setBuf x).samples = s.samples := rfl
@[simp] theorem setBuf_drawn (x : Memory) (s : State) : (s.setBuf x).drawn = s.drawn := rfl

@[simp] theorem setSel_st (x : Select) (s : State) : (s.setSel x).st = s.st := rfl
@[simp] theorem setSel_prow (x : Select) (s : State) : (s.setSel x).prow = s.prow := rfl
@[simp] theorem setSel_pcol (x : Select) (s : State) : (s.setSel x).pcol = s.pcol := rfl
@[simp] theorem setSel_cnt (x : Select) (s : State) : (s.setSel x).cnt = s.cnt := rfl
@[simp] theorem setSel_widx (x : Select) (s : State) : (s.setSel x).widx = s.widx := rfl
@[simp] theorem setSel_k (x : Select) (s : State) : (s.setSel x).k = s.k := rfl
@[simp] theorem setSel_buf (x : Select) (s : State) : (s.setSel x).buf = s.buf := rfl
@[simp] theorem setSel_sel (x : Select) (s : State) : (s.setSel x).sel = x := rfl
@[simp] theorem setSel_seg (x : Select) (s : State) : (s.setSel x).seg = s.seg := rfl
@[simp] theorem setSel_phase (x : Select) (s : State) : (s.setSel x).phase = s.phase := rfl
@[simp] theorem setSel_r (x : Select) (s : State) : (s.setSel x).r = s.r := rfl
@[simp] theorem setSel_c (x : Select) (s : State) : (s.setSel x).c = s.c := rfl
@[simp] theorem setSel_params (x : Select) (s : State) : (s.setSel x).params = s.params := rfl
@[simp] theorem setSel_samples (x : Select) (s : State) : (s.setSel x).samples = s.samples := rfl
@[simp] theorem setSel_drawn (x : Select) (s : State) : (s.setSel x).drawn = s.drawn := rfl

@[simp] theorem setSeg_st (x : Byte) (s : State) : (s.setSeg x).st = s.st := rfl
@[simp] theorem setSeg_prow (x : Byte) (s : State) : (s.setSeg x).prow = s.prow := rfl
@[simp] theorem setSeg_pcol (x : Byte) (s : State) : (s.setSeg x).pcol = s.pcol := rfl
@[simp] theorem setSeg_cnt (x : Byte) (s : State) : (s.setSeg x).cnt = s.cnt := rfl
@[simp] theorem setSeg_widx (x : Byte) (s : State) : (s.setSeg x).widx = s.widx := rfl
@[simp] theorem setSeg_k (x : Byte) (s : State) : (s.setSeg x).k = s.k := rfl
@[simp] theorem setSeg_buf (x : Byte) (s : State) : (s.setSeg x).buf = s.buf := rfl
@[simp] theorem setSeg_sel (x : Byte) (s : State) : (s.setSeg x).sel = s.sel := rfl
@[simp] theorem setSeg_seg (x : Byte) (s : State) : (s.setSeg x).seg = x := rfl
@[simp] theorem setSeg_phase (x : Byte) (s : State) : (s.setSeg x).phase = s.phase := rfl
@[simp] theorem setSeg_r (x : Byte) (s : State) : (s.setSeg x).r = s.r := rfl
@[simp] theorem setSeg_c (x : Byte) (s : State) : (s.setSeg x).c = s.c := rfl
@[simp] theorem setSeg_params (x : Byte) (s : State) : (s.setSeg x).params = s.params := rfl
@[simp] theorem setSeg_samples (x : Byte) (s : State) : (s.setSeg x).samples = s.samples := rfl
@[simp] theorem setSeg_drawn (x : Byte) (s : State) : (s.setSeg x).drawn = s.drawn := rfl

@[simp] theorem setPhase_st (x : Phase) (s : State) : (s.setPhase x).st = s.st := rfl
@[simp] theorem setPhase_prow (x : Phase) (s : State) : (s.setPhase x).prow = s.prow := rfl
@[simp] theorem setPhase_pcol (x : Phase) (s : State) : (s.setPhase x).pcol = s.pcol := rfl
@[simp] theorem setPhase_cnt (x : Phase) (s : State) : (s.setPhase x).cnt = s.cnt := rfl
@[simp] theorem setPhase_widx (x : Phase) (s : State) : (s.setPhase x).widx = s.widx := rfl
@[simp] theorem setPhase_k (x : Phase) (s : State) : (s.setPhase x).k = s.k := rfl
@[simp] theorem setPhase_buf (x : Phase) (s : State) : (s.setPhase x).buf = s.buf := rfl
@[simp] theorem setPhase_sel (x : Phase) (s : State) : (s.setPhase x).sel = s.sel := rfl
@[simp] theorem setPhase_seg (x : Phase) (s : State) : (s.setPhase x).seg = s.seg := rfl
@[simp] theorem setPhase_phase (x : Phase) (s : State) : (s.setPhase x).phase = x := rfl
@[simp] theorem setPhase_r (x : Phase) (s : State) : (s.setPhase x).r = s.r := rfl
@[simp] theorem setPhase_c (x : Phase) (s : State) : (s.setPhase x).c = s.c := rfl
@[simp] theorem setPhase_params (x : Phase) (s : State) : (s.setPhase x).params = s.params := rfl
@[simp] theorem setPhase_samples (x : Phase) (s : State) : (s.setPhase x).samples = s.samples := rfl
@[simp] theorem setPhase_drawn (x : Phase) (s : State) : (s.setPhase x).drawn = s.drawn := rfl

@[simp] theorem setR_st (x : Index) (s : State) : (s.setR x).st = s.st := rfl
@[simp] theorem setR_prow (x : Index) (s : State) : (s.setR x).prow = s.prow := rfl
@[simp] theorem setR_pcol (x : Index) (s : State) : (s.setR x).pcol = s.pcol := rfl
@[simp] theorem setR_cnt (x : Index) (s : State) : (s.setR x).cnt = s.cnt := rfl
@[simp] theorem setR_widx (x : Index) (s : State) : (s.setR x).widx = s.widx := rfl
@[simp] theorem setR_k (x : Index) (s : State) : (s.setR x).k = s.k := rfl
@[simp] theorem setR_buf (x : Index) (s : State) : (s.setR x).buf = s.buf := rfl
@[simp] theorem setR_sel (x : Index) (s : State) : (s.setR x).sel = s.sel := rfl
@[simp] theorem setR_seg (x : Index) (s : State) : (s.setR x).seg = s.seg := rfl
@[simp] theorem setR_phase (x : Index) (s : State) : (s.setR x).phase = s.phase := rfl
@[simp] theorem setR_r (x : Index) (s : State) : (s.setR x).r = x := rfl
@[simp] theorem setR_c (x : Index) (s : State) : (s.setR x).c = s.c := rfl
@[simp] theorem setR_params (x : Index) (s : State) : (s.setR x).params = s.params := rfl
@[simp] theorem setR_samples (x : Index) (s : State) : (s.setR x).samples = s.samples := rfl
@[simp] theorem setR_drawn (x : Index) (s : State) : (s.setR x).drawn = s.drawn := rfl

@[simp] theorem setC_st (x : Column) (s : State) : (s.setC x).st = s.st := rfl
@[simp] theorem setC_prow (x : Column) (s : State) : (s.setC x).prow = s.prow := rfl
@[simp] theorem setC_pcol (x : Column) (s : State) : (s.setC x).pcol = s.pcol := rfl
@[simp] theorem setC_cnt (x : Column) (s : State) : (s.setC x).cnt = s.cnt := rfl
@[simp] theorem setC_widx (x : Column) (s : State) : (s.setC x).widx = s.widx := rfl
@[simp] theorem setC_k (x : Column) (s : State) : (s.setC x).k = s.k := rfl
@[simp] theorem setC_buf (x : Column) (s : State) : (s.setC x).buf = s.buf := rfl
@[simp] theorem setC_sel (x : Column) (s : State) : (s.setC x).sel = s.sel := rfl
@[simp] theorem setC_seg (x : Column) (s : State) : (s.setC x).seg = s.seg := rfl
@[simp] theorem setC_phase (x : Column) (s : State) : (s.setC x).phase = s.phase := rfl
@[simp] theorem setC_r (x : Column) (s : State) : (s.setC x).r = s.r := rfl
@[simp] theorem setC_c (x : Column) (s : State) : (s.setC x).c = x := rfl
@[simp] theorem setC_params (x : Column) (s : State) : (s.setC x).params = s.params := rfl
@[simp] theorem setC_samples (x : Column) (s : State) : (s.setC x).samples = s.samples := rfl
@[simp] theorem setC_drawn (x : Column) (s : State) : (s.setC x).drawn = s.drawn := rfl

@[simp] theorem setSamples_st (x : List Column) (s : State) : (s.setSamples x).st = s.st := rfl
@[simp] theorem setSamples_prow (x : List Column) (s : State) : (s.setSamples x).prow = s.prow := rfl
@[simp] theorem setSamples_pcol (x : List Column) (s : State) : (s.setSamples x).pcol = s.pcol := rfl
@[simp] theorem setSamples_cnt (x : List Column) (s : State) : (s.setSamples x).cnt = s.cnt := rfl
@[simp] theorem setSamples_widx (x : List Column) (s : State) : (s.setSamples x).widx = s.widx := rfl
@[simp] theorem setSamples_k (x : List Column) (s : State) : (s.setSamples x).k = s.k := rfl
@[simp] theorem setSamples_buf (x : List Column) (s : State) : (s.setSamples x).buf = s.buf := rfl
@[simp] theorem setSamples_sel (x : List Column) (s : State) : (s.setSamples x).sel = s.sel := rfl
@[simp] theorem setSamples_seg (x : List Column) (s : State) : (s.setSamples x).seg = s.seg := rfl
@[simp] theorem setSamples_phase (x : List Column) (s : State) : (s.setSamples x).phase = s.phase := rfl
@[simp] theorem setSamples_r (x : List Column) (s : State) : (s.setSamples x).r = s.r := rfl
@[simp] theorem setSamples_c (x : List Column) (s : State) : (s.setSamples x).c = s.c := rfl
@[simp] theorem setSamples_params (x : List Column) (s : State) : (s.setSamples x).params = s.params := rfl
@[simp] theorem setSamples_samples (x : List Column) (s : State) : (s.setSamples x).samples = x := rfl
@[simp] theorem setSamples_drawn (x : List Column) (s : State) : (s.setSamples x).drawn = s.drawn := rfl

@[simp] theorem setDrawn_st (x : Nat) (s : State) : (s.setDrawn x).st = s.st := rfl
@[simp] theorem setDrawn_prow (x : Nat) (s : State) : (s.setDrawn x).prow = s.prow := rfl
@[simp] theorem setDrawn_pcol (x : Nat) (s : State) : (s.setDrawn x).pcol = s.pcol := rfl
@[simp] theorem setDrawn_cnt (x : Nat) (s : State) : (s.setDrawn x).cnt = s.cnt := rfl
@[simp] theorem setDrawn_widx (x : Nat) (s : State) : (s.setDrawn x).widx = s.widx := rfl
@[simp] theorem setDrawn_k (x : Nat) (s : State) : (s.setDrawn x).k = s.k := rfl
@[simp] theorem setDrawn_buf (x : Nat) (s : State) : (s.setDrawn x).buf = s.buf := rfl
@[simp] theorem setDrawn_sel (x : Nat) (s : State) : (s.setDrawn x).sel = s.sel := rfl
@[simp] theorem setDrawn_seg (x : Nat) (s : State) : (s.setDrawn x).seg = s.seg := rfl
@[simp] theorem setDrawn_phase (x : Nat) (s : State) : (s.setDrawn x).phase = s.phase := rfl
@[simp] theorem setDrawn_r (x : Nat) (s : State) : (s.setDrawn x).r = s.r := rfl
@[simp] theorem setDrawn_c (x : Nat) (s : State) : (s.setDrawn x).c = s.c := rfl
@[simp] theorem setDrawn_params (x : Nat) (s : State) : (s.setDrawn x).params = s.params := rfl
@[simp] theorem setDrawn_samples (x : Nat) (s : State) : (s.setDrawn x).samples = s.samples := rfl
@[simp] theorem setDrawn_drawn (x : Nat) (s : State) : (s.setDrawn x).drawn = x := rfl

end State
end Sys2Proof.Machine
end

