-- ==== Sys2Proof/Laws/Ops.lean ====
section
/-!
SUPPORT. One lemma per shared operation that says what it can do, and the small lemmas of the tables and the ports.
-/

namespace Sys2Proof.Machine

/-! ### Tables -/

/-- A layout entry is a symbol exactly where the sample is a single asserted column (R100). -/
theorem keyDecode_isSome (P : Params) (r : Index) (c : Column) :
    (keyDecode P r c).isSome = true ↔ c = 1 ∨ c = 2 ∨ c = 4 ∨ c = 8 := by
  unfold keyDecode keyTab
  split
  · simp_all
  · split
    · simp_all
    · split
      · simp_all
      · split <;> simp_all

@[simp] theorem keyDecode_zero (P : Params) (r : Index) : keyDecode P r 0 = none := rfl

theorem decodePattern_of_key (P : Params) (r : Index) (c : Column) :
    decodePattern P r c = (keyDecode P r c).map (fun s => segEncode P (some s)) := by
  unfold decodePattern
  cases keyDecode P r c <;> rfl

@[simp] theorem segEncode_blank (P : Params) : segEncode P none = 0xFF := rfl

/-! ### Ports and registers -/

@[simp] theorem portWriteSel_eq (v : Select) (s : State) : portWriteSel v s = s.setSel v := rfl
@[simp] theorem portWriteSeg_eq (v : Byte) (s : State) : portWriteSeg v s = s.setSeg v := rfl
@[simp] theorem settleWait_eq (s : State) : settleWait s = s := rfl
@[simp] theorem countPulse_eq (s : State) : countPulse s = s.setCnt (s.cnt + 1) := rfl

/-- `COL` reads as the next lined-up sample. -/
@[simp] theorem portReadCol_cons (s : State) (c : Column) (cs : List Column) (h : s.samples = c :: cs) :
    portReadCol s = c := by simp [portReadCol, h]

/-- `COL` is a free value where no sample is lined up. -/
@[simp] theorem portReadCol_nil (s : State) (h : s.samples = []) : portReadCol s = Config.colSample s.drawn := by
  simp [portReadCol, h]

/-- `onecold4(i)` has exactly bit `i` at 0 (R55). -/
theorem onecold4_getLsbD (i : Index) (j : Fin 4) : (onecold4 i).getLsbD j.val = decide (j.val ≠ i.toNat) := by
  revert i j; decide

theorem onecold4_injective (i j : Index) (h : onecold4 i = onecold4 j) : i = j := by
  revert i j; decide

theorem onecold4_ne_allDeselected (i : Index) : onecold4 i ≠ allDeselected := by
  revert i; decide

/-! ### Display Buffer -/

/-- `BufRead` after a write: the written byte at the written index, every other entry as before (R37, R107). -/
theorem bufRead_bufWrite (i j : Index) (v : Byte) (s : State) :
    bufRead j (bufWrite i v s) = if i = j then v else bufRead j s := by
  unfold bufRead bufWrite
  rw [State.setBuf_buf, Memory.read_write]
  by_cases h : i = j
  · simp [h]
  · have : i.toNat ≠ j.toNat := fun e => h (BitVec.eq_of_toNat_eq e)
    simp [h, this]

/-- `BufPush` (R107): the entry at the current index, the others, and the index. -/
theorem bufPush_spec (pat : Byte) (s : State) :
    (∀ j, bufRead j (bufPush pat s) = if s.widx = j then pat else bufRead j s) ∧
      (bufPush pat s).widx = s.widx + 1 ∧
      bufPush pat s = (s.setBuf (s.buf.write s.widx.toNat pat)).setWidx (s.widx + 1) :=
  ⟨fun j => bufRead_bufWrite s.widx j pat s, rfl, rfl⟩

theorem bufPush_wf (pat : Byte) (s : State) (h : s.buf.wf = true) : (bufPush pat s).buf.wf = true :=
  Memory.wf_write _ _ _ s.widx.isLt h

/-! ### Anomalies and PROCESS -/

/-- What taking an anomaly can answer (R140 to R143). -/
theorem absorbAnomaly_cases (a : Anomaly) (s t : State) (h : absorbAnomaly a s = .next t) :
    (a = .spuriousPress ∧ t = s.setSt .idle) ∨ (a = .bounceDuringRelease ∧ t = s.setCnt 0) := by
  cases a <;> simp_all [absorbAnomaly]

/-- `PROCESS` on a recorded pair that holds a key. -/
theorem processRecorded_of_key (s : State) (x : Fin 16) (h : recordedEntry s = some x) :
    processRecorded s = .next (((bufPush (segEncode s.params (some x)) s).setCnt 0).setSt .release) := by
  unfold recordedEntry at h
  simp [processRecorded, decodePattern, h]

/-- `PROCESS` on a recorded pair that holds no key is the model-only fault (R104). -/
theorem processRecorded_of_noKey (s : State) (h : recordedEntry s = none) :
    processRecorded s = .fault .sentinelAtProcess := by
  unfold recordedEntry at h
  simp [processRecorded, decodePattern, h, absorbAnomaly]

/-- Everything `PROCESS` can do when it answers a next state. -/
theorem processRecorded_cases (s t : State) (h : processRecorded s = .next t) :
    ∃ x, recordedEntry s = some x ∧ t = ((bufPush (segEncode s.params (some x)) s).setCnt 0).setSt .release := by
  cases hx : recordedEntry s with
  | none => rw [processRecorded_of_noKey s hx] at h; cases h
  | some x => rw [processRecorded_of_key s x hx] at h; cases h; exact ⟨x, rfl, rfl⟩

/-! ### Outcomes -/

@[simp] theorem afterNext_next (s : State) (f : State → Host.Outcome State Fault Refusal) :
    afterNext (.next s) f = f s := rfl
@[simp] theorem afterNext_fault (e : Fault) (f : State → Host.Outcome State Fault Refusal) :
    afterNext (.fault e) f = .fault e := rfl
@[simp] theorem afterNext_refused (e : Refusal) (f : State → Host.Outcome State Fault Refusal) :
    afterNext (.refused e) f = .refused e := rfl

theorem afterNext_eq_next (o : Host.Outcome State Fault Refusal) (f : State → Host.Outcome State Fault Refusal)
    (t : State) : afterNext o f = .next t ↔ ∃ u, o = .next u ∧ f u = .next t := by
  cases o <;> simp [afterNext]

end Sys2Proof.Machine
end

