-- ==== Sys2Proof/Laws/Exec.lean ====
section
/-!
SUPPORT. What each meaning answers, as one equation a meaning, and what a step does with it.
-/

namespace Sys2Proof.Machine

/-! ### Meanings -/

theorem exec_scan (kk : Index) (s : State) :
    exec (.scan kk) s =
      .next { s with sel := onecold4 kk, seg := bufRead kk s, c := portReadCol s, r := kk, k := kk + 1,
                     samples := s.samples.tail, drawn := s.drawn + 1 } := by
  have hc : ∀ x y, portReadCol ((s.setSel x).setSeg y) = portReadCol s := by
    intro x y
    simp only [portReadCol, State.setSeg_samples, State.setSel_samples, State.setSeg_drawn, State.setSel_drawn]
  have hb : ∀ x, bufRead kk (s.setSel x) = bufRead kk s := by
    intro x
    simp only [bufRead, State.setSel_buf]
  have hs : ∀ x y, (s.setSel x).setSel y = s.setSel y := fun _ _ => rfl
  simp only [exec, execScan, scanAdvance, scanSample, scanRefresh, scanSelect, scanDeselect, settleWait_eq,
    portWriteSel_eq, portWriteSeg_eq]
  rw [hs, hb, hc]
  rfl

theorem exec_idleStay (s : State) : exec .idleStay s = .next s := rfl
theorem exec_idleArm (s : State) :
    exec .idleArm s = .next { s with prow := s.r, pcol := s.c, cnt := 0, st := .press } := rfl
theorem exec_pressSkip (s : State) : exec .pressSkip s = .next s := rfl
theorem exec_pressCount (s : State) : exec .pressCount s = .next { s with cnt := s.cnt + 1 } := rfl
theorem exec_pressAccept (s : State) :
    exec .pressAccept s = processRecorded { s with cnt := s.cnt + 1, st := .process } := rfl
theorem exec_pressReject (s : State) : exec .pressReject s = .next { s with st := .idle } := rfl
theorem exec_process (s : State) : exec .process s = processRecorded s := rfl
theorem exec_releaseSkip (s : State) : exec .releaseSkip s = .next s := rfl
theorem exec_releaseCount (s : State) : exec .releaseCount s = .next { s with cnt := s.cnt + 1 } := rfl
theorem exec_releaseDone (s : State) :
    exec .releaseDone s = .next { s with cnt := s.cnt + 1, st := .idle } := rfl
theorem exec_releaseHold (s : State) : exec .releaseHold s = .next { s with cnt := 0 } := rfl

/-! ### Steps -/

/-- At the start of a tick the step is SCAN of the slot `k`. -/
theorem step_at_scan (s : State) (h : s.phase = .scan) :
    step s = afterNext (exec (.scan s.k) s) (fun t => .next { t with phase := .eval }) := by
  simp only [step, fetch, h, decode_slot]
  rfl

/-- At the FSM evaluation the step is the operation that the condition word selects. -/
theorem step_at_eval (s : State) (i : Instr) (h : s.phase = .eval) (hi : decodeCond (condWord s) = some i) :
    step s = afterNext (exec i s) (fun t => .next { t with phase := .scan }) := by
  simp only [step, fetch, h, decode_cond, hi]
  rfl

@[simp] theorem ticks_zero (s : State) : ticks 0 s = .next s := rfl
theorem ticks_succ (n : Nat) (s : State) : ticks (n + 1) s = afterNext (tick s) (ticks n) := rfl

/-- A run of `m + n` ticks is a run of `m` and then a run of `n`. -/
theorem ticks_add (m n : Nat) (s : State) : ticks (m + n) s = afterNext (ticks m s) (ticks n) := by
  induction m generalizing s with
  | zero => simp
  | succ m ih =>
    rw [Nat.succ_add, ticks_succ, ticks_succ]
    cases tick s <;> simp [ih]

end Sys2Proof.Machine
end

