-- ==== Sys2Proof/Laws/PerInstr.lean ====
section
/-!
SUPPORT. Facts about every operation as syntax, one lemma per constructor.
-/

namespace Sys2Proof.Laws.EncodedWordWellFormed

/-- The encoder's word of an operation uses no bit above its format and no bit the operation ignores. -/
def Statement (i : Instr) : Prop :=
  (encode i).wf = true ∧ (encode i).bits &&& bitsLookedAt i = (encode i).bits

theorem scan (kk : Index) : Statement (.scan kk) := by revert kk; unfold Statement; decide
theorem idleStay : Statement .idleStay := by unfold Statement; decide
theorem idleArm : Statement .idleArm := by unfold Statement; decide
theorem pressSkip : Statement .pressSkip := by unfold Statement; decide
theorem pressCount : Statement .pressCount := by unfold Statement; decide
theorem pressAccept : Statement .pressAccept := by unfold Statement; decide
theorem pressReject : Statement .pressReject := by unfold Statement; decide
theorem process : Statement .process := by unfold Statement; decide
theorem releaseSkip : Statement .releaseSkip := by unfold Statement; decide
theorem releaseCount : Statement .releaseCount := by unfold Statement; decide
theorem releaseDone : Statement .releaseDone := by unfold Statement; decide
theorem releaseHold : Statement .releaseHold := by unfold Statement; decide

end Sys2Proof.Laws.EncodedWordWellFormed
end

