-- ==== Sys2Proof/Machine/Stimulus.lean ====
section
/-!
DEFINITION. The stimulus notation (30_encoding.md R62, R63): functions that build the samples a trace lines up. They
describe an environment (the ideal matrix of D19) and no operation uses them (log entry 18).
-/

namespace Sys2Proof.Machine

/-- `key(row, v) during [start, stop)` (R63). -/
structure KeyEntry where
  row : Index
  v : Column
  start : Nat
  stop : Nat
deriving DecidableEq, Repr

/-- Whether an entry contributes to the sample of tick `t`: it is active and `t mod 4` is its row (R63). -/
def keyActive (t : Nat) (e : KeyEntry) : Bool := e.start ≤ t && t < e.stop && t % 4 == e.row.toNat

/-- The sample of tick `t`: the OR of the active entries' columns, `0000` where there is none (R63). -/
def scheduleSample (es : List KeyEntry) (t : Nat) : Column :=
  (es.filter (keyActive t)).foldl (fun acc e => acc ||| e.v) 0

/-- The samples of the ticks `0 .. n - 1` of a key schedule (R62, R63). -/
def scheduleTrace (es : List KeyEntry) (n : Nat) : List Column := (List.range n).map (scheduleSample es)

/-- `idle(n)` (R63). -/
def idleTrace (n : Nat) : List Column := List.replicate n 0

/-- `pass(v0, v1, v2, v3)` (R63). -/
def passTrace (v0 v1 v2 v3 : Column) : List Column := [v0, v1, v2, v3]

/-- `hold(r, v, n)` (R63). -/
def holdTrace (r : Index) (v : Column) : Nat → List Column
  | 0 => []
  | n + 1 =>
    passTrace (if r = 0 then v else 0) (if r = 1 then v else 0) (if r = 2 then v else 0) (if r = 3 then v else 0)
      ++ holdTrace r v n

end Sys2Proof.Machine
end

