-- ==== Sys2Proof/Tests/Slice0.lean ====
section
/-!
SUPPORT. Tests, their expected results taken from spec/95_test_vectors.md (V<n>, T<n>, P<n>), smoke tests of the
checks, and for each statement a concrete state and operands that meet its hypotheses together.
-/

namespace Sys2Proof.Tests

open Sys2Proof Sys2Proof.Machine

/-! ### Words written out from the encodings of R59 and R60 -/

theorem test_decode_scan :
    decode ⟨.slot, 0b00⟩ = .ok (.scan 0) ∧ decode ⟨.slot, 0b10⟩ = .ok (.scan 2) ∧ decode ⟨.slot, 0b11⟩ = .ok (.scan 3) := by
  decide
theorem test_decode_idleStay : decode ⟨.cond, 0b0010010⟩ = .ok .idleStay := by decide
theorem test_decode_idleArm : decode ⟨.cond, 0b0011100⟩ = .ok .idleArm := by decide
theorem test_decode_pressSkip : decode ⟨.cond, 0b0101110⟩ = .ok .pressSkip := by decide
theorem test_decode_pressCount : decode ⟨.cond, 0b0111110⟩ = .ok .pressCount := by decide
theorem test_decode_pressAccept : decode ⟨.cond, 0b0111111⟩ = .ok .pressAccept := by decide
theorem test_decode_pressReject : decode ⟨.cond, 0b0110001⟩ = .ok .pressReject := by decide
theorem test_decode_process : decode ⟨.cond, 0b1000001⟩ = .ok .process := by decide
theorem test_decode_releaseSkip : decode ⟨.cond, 0b1101101⟩ = .ok .releaseSkip := by decide
theorem test_decode_releaseCount : decode ⟨.cond, 0b1110000⟩ = .ok .releaseCount := by decide
theorem test_decode_releaseDone : decode ⟨.cond, 0b1110001⟩ = .ok .releaseDone := by decide
theorem test_decode_releaseHold : decode ⟨.cond, 0b1110100⟩ = .ok .releaseHold := by decide
theorem test_decodeTableWord :
    decodeTableWord 2 3 = some (.scan 3) ∧ decodeTableWord 8 0x7C = some .releaseHold ∧
    decodeTableWord 8 0x80 = none ∧ decodeTableWord 16 0x13E = none := by decide

/-! ### Ill-formed terms are refused by name -/

theorem test_wf_slot_reserved : decode ⟨.slot, 0b100⟩ = .error .reservedBits := by decide
theorem test_wf_cond_reserved : decode ⟨.cond, 0x80⟩ = .error .reservedBits := by decide

/-- The defaults of R105 and R106 as raw numbers, `N = 100`. -/
def rawDefault : RawParams :=
  { n := 100,
    keymap := [[1, 2, 3, 10], [4, 5, 6, 11], [7, 8, 9, 12], [14, 0, 15, 13]],
    segtab := [0xC0, 0xF9, 0xA4, 0xB0, 0x99, 0x92, 0x82, 0xF8, 0x80, 0x90, 0x88, 0x83, 0xC6, 0xA1, 0x86, 0x8E, 0xFF] }

theorem test_raw_accepted : paramsOfRaw rawDefault = some (defaultParams 99) := by decide
theorem test_raw_threshold_zero : paramsOfRaw { rawDefault with n := 0 } = none := by decide
theorem test_raw_keymap_three_rows :
    paramsOfRaw { rawDefault with keymap := [[1, 2, 3, 10], [4, 5, 6, 11], [7, 8, 9, 12]] } = none := by decide
theorem test_raw_keymap_symbol_17 :
    paramsOfRaw { rawDefault with keymap := [[1, 2, 3, 10], [4, 5, 6, 11], [7, 8, 9, 12], [14, 0, 17, 13]] } = none := by
  decide
theorem test_raw_segtab_sixteen_entries :
    paramsOfRaw { rawDefault with segtab := List.replicate 16 0xFF } = none := by decide
theorem test_raw_blank_lit :
    paramsOfRaw { rawDefault with segtab := List.replicate 17 0xFE } = none := by decide

/-! ### Tables, buffer, stimulus -/

/-- T3. -/
theorem test_T3 :
    decodePattern (defaultParams 1) 0 8 = some 0x88 ∧ decodePattern (defaultParams 1) 1 2 = some 0x92 ∧
    decodePattern (defaultParams 1) 3 2 = some 0xC0 ∧ decodePattern (defaultParams 1) 3 4 = some 0x8E ∧
    decodePattern (defaultParams 1) 2 0 = none ∧ decodePattern (defaultParams 1) 2 3 = none := by decide

/-- T2. -/
theorem test_T2 :
    keyTab (defaultParams 1) 1 8 = some 11 ∧ keyTab (defaultParams 1) 1 6 = none ∧
    columnClass 4 = .single 2 ∧ columnClass 0 = .noneAsserted ∧ columnClass 9 = .ghost := by decide

/-- The 5-bit symbol codes of R53. -/
theorem test_symbolCode : symbolCode none = 16 ∧ symbolCode (some 15) = 15 := by decide

/-- The canonical form: rewriting the blank pattern lists nothing. -/
theorem test_memory_canonical :
    Memory.write (Memory.write [] 2 0x92) 0 0xF9 = [(0, 0xF9), (2, 0x92)] ∧
    Memory.write [(0, 0xF9), (2, 0x92)] 2 0xFF = [(0, 0xF9)] ∧
    Memory.wf [(2, 0x92), (0, 0xF9)] = false ∧ Memory.wf [(1, 0xFF)] = false ∧ Memory.wf [(4, 0x92)] = false := by
  decide

/-- P1's first five scan passes, from its key schedule: `0200 0200 0200 0200 0000`. -/
theorem test_P1_samples :
    scheduleTrace [{ row := 1, v := 2, start := 0, stop := 16 }] 20 = holdTrace 1 2 4 ++ idleTrace 4 := by decide

/-! ### One step of every operation -/

/-- A state at the start of a tick, in the notation of the vectors, with the samples `cs` lined up. -/
def scanState (n : Nat) (st : Fsm) (prow : Index) (pcol : Column) (cnt : Nat) (widx k : Index) (bytes : List Byte)
    (cs : List Column) : State :=
  { State.resetWith (defaultParams (n - 1)) cs 0 with
    st := st, prow := prow, pcol := pcol, cnt := cnt, widx := widx, k := k,
    buf := bytes.zipIdx.foldl (fun m x => m.write x.2 x.1) [] }

/-- The same after the tick's SCAN, which returned `(r, c)`. -/
def evalState (n : Nat) (st : Fsm) (prow : Index) (pcol : Column) (cnt : Nat) (widx r : Index) (bytes : List Byte)
    (c : Column) : State :=
  { scanState n st prow pcol cnt widx (r + 1) bytes [] with phase := .eval, r := r, c := c, sel := onecold4 r, drawn := 1 }

/-- `st prow pcol cnt widx` and the buffer entries, as the vectors write them. -/
structure Summary where
  st : Fsm
  prow : Index
  pcol : Column
  cnt : Nat
  widx : Index
  bytes : List Byte
deriving DecidableEq, Repr

/-- The vector's columns for the next state. -/
def after (o : Host.Outcome State Fault Refusal) : Option Summary :=
  match o with
  | .next s => some ⟨s.st, s.prow, s.pcol, s.cnt, s.widx, [bufRead 0 s, bufRead 1 s, bufRead 2 s, bufRead 3 s]⟩
  | .fault _ => none
  | .refused _ => none

/-- `SEL`, `SEG`, the pair handed over, and the scan index of the next state. -/
def ports (o : Host.Outcome State Fault Refusal) : Option (Select × Byte × Index × Column × Index) :=
  match o with
  | .next s => some (s.sel, s.seg, s.r, s.c, s.k)
  | .fault _ => none
  | .refused _ => none

/-- The fault of a step that stops. -/
def faultOf (o : Host.Outcome State Fault Refusal) : Option Fault :=
  match o with
  | .next _ => none
  | .fault e => some e
  | .refused _ => none

/-- The buffer contents most vectors use. -/
def digits : List Byte := [0xF9, 0xA4, 0xB0, 0x99]

/-- T1, slot 1. -/
theorem test_T1_slot1 :
    ports (step (scanState 2 .idle 0 0 0 0 1 digits [0b0100])) = some (0b1101, 0xA4, 1, 0b0100, 2) := by decide
/-- T1, slot 3: the scan index wraps. -/
theorem test_T1_slot3 :
    ports (step (scanState 2 .press 3 1 1 3 3 digits [0b0001, 0])) = some (0b0111, 0x99, 3, 0b0001, 0) := by decide

/-- V1: `cw = 0x12`. -/
theorem test_V1 : condWord (evalState 2 .idle 0 0 0 0 0 [] 0) = 0x12 ∧
    after (step (evalState 2 .idle 0 0 0 0 0 [] 0)) = some ⟨.idle, 0, 0, 0, 0, [0xFF, 0xFF, 0xFF, 0xFF]⟩ := by decide
/-- V4: a GHOST does not arm. -/
theorem test_V4 : condWord (evalState 2 .idle 1 2 3 1 2 digits 3) = 0x05 ∧
    after (step (evalState 2 .idle 1 2 3 1 2 digits 3)) = some ⟨.idle, 1, 2, 3, 1, digits⟩ := by decide
/-- V3. -/
theorem test_V3 : condWord (evalState 2 .idle 0 0 0 0 3 [] 8) = 0x0C ∧
    after (step (evalState 2 .idle 0 0 0 0 3 [] 8)) = some ⟨.press, 3, 8, 0, 0, [0xFF, 0xFF, 0xFF, 0xFF]⟩ := by decide
/-- V6: the stale counter is cleared. -/
theorem test_V6 : condWord (evalState 2 .idle 1 2 3 1 1 digits 4) = 0x1D ∧
    after (step (evalState 2 .idle 1 2 3 1 1 digits 4)) = some ⟨.press, 1, 4, 0, 1, digits⟩ := by decide
/-- V7: another row with the same value is no evidence. -/
theorem test_V7 : condWord (evalState 2 .press 1 2 0 0 0 [] 2) = 0x2E ∧
    after (step (evalState 2 .press 1 2 0 0 0 [] 2)) = some ⟨.press, 1, 2, 0, 0, [0xFF, 0xFF, 0xFF, 0xFF]⟩ := by decide
/-- V9: `2 > 2` is false. -/
theorem test_V9 : condWord (evalState 2 .press 1 2 1 0 1 [] 2) = 0x3E ∧
    after (step (evalState 2 .press 1 2 1 0 1 [] 2)) = some ⟨.press, 1, 2, 2, 0, [0xFF, 0xFF, 0xFF, 0xFF]⟩ := by decide
/-- V10. -/
theorem test_V10 : condWord (evalState 2 .press 1 2 2 0 1 [] 2) = 0x3F ∧
    after (step (evalState 2 .press 1 2 2 0 1 [] 2)) = some ⟨.release, 1, 2, 0, 1, [0x92, 0xFF, 0xFF, 0xFF]⟩ := by decide
/-- V14: `N = 1`, the write index wraps. -/
theorem test_V14 : condWord (evalState 1 .press 0 8 1 3 0 digits 8) = 0x3F ∧
    after (step (evalState 1 .press 0 8 1 3 0 digits 8)) = some ⟨.release, 0, 8, 0, 0, [0xF9, 0xA4, 0xB0, 0x88]⟩ := by
  decide
/-- V11: a mismatch wins over the threshold. -/
theorem test_V11 : condWord (evalState 2 .press 1 2 2 0 1 [] 0) = 0x31 ∧
    after (step (evalState 2 .press 1 2 2 0 1 [] 0)) = some ⟨.idle, 1, 2, 2, 0, [0xFF, 0xFF, 0xFF, 0xFF]⟩ := by decide
/-- V13: a GHOST that contains the recorded bit is rejected. -/
theorem test_V13 : condWord (evalState 2 .press 1 2 1 0 1 [] 6) = 0x34 ∧
    after (step (evalState 2 .press 1 2 1 0 1 [] 6)) = some ⟨.idle, 1, 2, 1, 0, [0xFF, 0xFF, 0xFF, 0xFF]⟩ := by decide
/-- V16: PROCESS acts on the recorded pair. -/
theorem test_V16 : condWord (evalState 2 .process 2 4 2 2 0 digits 0) = 0x41 ∧
    after (step (evalState 2 .process 2 4 2 2 0 digits 0)) = some ⟨.release, 2, 4, 0, 3, [0xF9, 0xA4, 0x90, 0x99]⟩ := by
  decide
/-- V17: the sentinel pair. -/
theorem test_V17 : faultOf (step (evalState 2 .process 2 3 0 0 0 [] 0)) = some .sentinelAtProcess := by decide
/-- V18. -/
theorem test_V18 : condWord (evalState 2 .release 1 2 0 1 0 digits 0) = 0x60 ∧
    after (step (evalState 2 .release 1 2 0 1 0 digits 0)) = some ⟨.release, 1, 2, 0, 1, digits⟩ := by decide
/-- V19. -/
theorem test_V19 : condWord (evalState 2 .release 1 2 0 1 1 digits 0) = 0x70 ∧
    after (step (evalState 2 .release 1 2 0 1 1 digits 0)) = some ⟨.release, 1, 2, 1, 1, digits⟩ := by decide
/-- V20: the counter keeps `N + 1`. -/
theorem test_V20 : condWord (evalState 2 .release 1 2 2 1 1 digits 0) = 0x71 ∧
    after (step (evalState 2 .release 1 2 2 1 1 digits 0)) = some ⟨.idle, 1, 2, 3, 1, digits⟩ := by decide
/-- V21: a non-zero sample wins over the threshold. -/
theorem test_V21 : condWord (evalState 2 .release 1 2 2 1 1 digits 2) = 0x7F ∧
    after (step (evalState 2 .release 1 2 2 1 1 digits 2)) = some ⟨.release, 1, 2, 0, 1, digits⟩ := by decide
/-- V23: a GHOST holds the release. -/
theorem test_V23 : condWord (evalState 2 .release 1 2 1 1 1 digits 5) = 0x74 ∧
    after (step (evalState 2 .release 1 2 1 1 1 digits 5)) = some ⟨.release, 1, 2, 0, 1, digits⟩ := by decide

/-- T7: reset applied to the end state of P2. -/
theorem test_T7 : after (.next (applyReset (scanState 1 .idle 1 1 2 1 0 [0x99, 0xA4, 0xB0, 0x88] []))) =
    some ⟨.idle, 0, 0, 0, 0, [0xFF, 0xFF, 0xFF, 0xFF]⟩ := by decide

/-- A placed operation is the one the next step fetches. -/
theorem test_withFetchWord :
    decode (fetch ((scanState 2 .idle 0 0 0 0 0 [] []).withFetchWord 8 0x3F)) = .ok .pressAccept ∧
    decode (fetch ((scanState 2 .idle 0 0 0 0 0 [] []).withFetchWord 8 0x71)) = .ok .releaseDone ∧
    decode (fetch ((scanState 2 .idle 0 0 0 0 0 [] []).withFetchWord 2 3)) = .ok (.scan 3) := by decide

/-! ### Witnesses: the hypotheses of each statement are met together -/

theorem witness_DecodeAndEncodeAgree :
    (Instr.scan 3).wf = true ∧ (OpWord.mk .cond 0x7F).wf = true ∧ (OpWord.mk .slot 3).wf = true ∧
    (decode ⟨.cond, 0x7F⟩ = .ok .releaseHold ∧ (OpWord.mk .cond 0x74).wf = true ∧
      (0x74 : Byte) &&& bitsLookedAt .releaseHold = 0x7F &&& bitsLookedAt .releaseHold) ∧
    (OpWord.mk .cond 0x80).wf = false ∧ (OpWord.mk .slot 4).wf = false := by decide

/-- Each branch of the case tree is reached. -/
theorem witness_SelectionFollowsTheCaseTree :
    (evalState 1 .idle 0 0 0 0 0 [] 1).phase = .eval ∧
    decode (fetch (evalState 1 .idle 0 0 0 0 0 [] 1)) = .ok .idleArm ∧
    decode (fetch (evalState 1 .idle 0 0 0 0 0 [] 3)) = .ok .idleStay ∧
    decode (fetch (evalState 1 .press 1 2 0 0 0 [] 2)) = .ok .pressSkip ∧
    decode (fetch (evalState 1 .press 1 2 0 0 1 [] 3)) = .ok .pressReject ∧
    decode (fetch (evalState 1 .press 1 2 1 0 1 [] 2)) = .ok .pressAccept ∧
    decode (fetch (evalState 1 .press 1 2 0 0 1 [] 2)) = .ok .pressCount ∧
    decode (fetch (evalState 1 .process 1 2 0 0 1 [] 2)) = .ok .process ∧
    decode (fetch (evalState 1 .release 1 2 0 0 0 [] 0)) = .ok .releaseSkip ∧
    decode (fetch (evalState 1 .release 1 2 0 0 1 [] 1)) = .ok .releaseHold ∧
    decode (fetch (evalState 1 .release 1 2 1 0 1 [] 0)) = .ok .releaseDone ∧
    decode (fetch (evalState 1 .release 1 2 0 0 1 [] 0)) = .ok .releaseCount := by decide

theorem witness_StepRunsTheDecodedOperation :
    decode (fetch (evalState 2 .press 1 2 0 0 1 [] 2)) = .ok .pressCount ∧ Instr.pressCount.wf = true ∧
    decode (fetch (scanState 2 .idle 0 0 0 0 3 [] [])) = .ok (.scan 3) ∧ (Instr.scan 3).wf = true ∧
    decode (fetch (evalState 2 .process 2 3 0 0 0 [] 0)) = .ok .process ∧
    faultOf (exec .process (evalState 2 .process 2 3 0 0 0 [] 0)) = some .sentinelAtProcess := by decide

theorem witness_TickStartsWithScanOfSlotK : (scanState 2 .press 1 2 0 0 3 [] []).phase = .scan := by decide

/-- A tick that goes on, and one whose evaluation faults. -/
theorem witness_TickIsOneScanThenOneEvaluation :
    (scanState 2 .idle 0 0 0 0 0 [] [1]).phase = .scan ∧
    after (tick (scanState 2 .idle 0 0 0 0 0 [] [1])) = some ⟨.press, 0, 1, 0, 0, [0xFF, 0xFF, 0xFF, 0xFF]⟩ ∧
    faultOf (tick (scanState 2 .process 2 3 0 0 0 [] [0])) = some .sentinelAtProcess := by decide

theorem witness_ScanServesItsSlot :
    (scanState 2 .idle 0 0 0 0 3 digits [5]).samples = 5 :: [] ∧ (scanState 2 .idle 0 0 0 0 3 digits []).samples = [] := by
  decide

theorem witness_AtMostOneSelectLineActiveDuringScan :
    scanDeselect (scanState 2 .idle 0 0 0 0 3 digits [5]) ∈ scanStages 3 (scanState 2 .idle 0 0 0 0 3 digits [5]) ∧
    scanSelect 3 (scanDeselect (scanState 2 .idle 0 0 0 0 3 digits [5])) ∈
      scanStages 3 (scanState 2 .idle 0 0 0 0 3 digits [5]) ∧
    (onecold4 3).getLsbD 3 = false := by decide

theorem witness_ScanIndexAdvancesInEveryTick :
    (scanState 2 .idle 0 0 0 0 3 digits [8]).phase = .scan ∧ ∃ t, tick (scanState 2 .idle 0 0 0 0 3 digits [8]) = .next t :=
  ⟨by decide, _, rfl⟩

theorem witness_IdleStayChangesNothing :
    (evalState 2 .idle 1 2 3 1 2 digits 3).phase = .eval ∧ (evalState 2 .idle 1 2 3 1 2 digits 3).st = .idle ∧
    keyDecode (defaultParams 1) 2 3 = none := by decide

theorem witness_IdleArmRecordsTheKey :
    (evalState 2 .idle 1 2 3 1 1 digits 4).phase = .eval ∧ (evalState 2 .idle 1 2 3 1 1 digits 4).st = .idle ∧
    keyDecode (evalState 2 .idle 1 2 3 1 1 digits 4).params 1 4 = some 6 := by decide

theorem witness_OtherRowsAreSkipped :
    (evalState 2 .press 1 2 0 0 0 [] 2).phase = .eval ∧ (0 : Index) ≠ (evalState 2 .press 1 2 0 0 0 [] 2).prow ∧
    (evalState 2 .press 1 2 0 0 0 [] 2).st = .press ∧ (evalState 2 .release 1 2 0 0 0 [] 2).st = .release ∧
    (evalState 2 .release 1 2 0 0 0 [] 2).r ≠ (evalState 2 .release 1 2 0 0 0 [] 2).prow := by decide

/-- At the boundary: `cnt + 1 = N`. -/
theorem witness_PressCountCountsTheSample :
    let s := evalState 2 .press 1 2 1 0 1 [] 2
    s.phase = .eval ∧ s.st = .press ∧ s.r = s.prow ∧ s.c = s.pcol ∧ s.cnt + 1 = s.params.N := by decide

/-- At the boundary: `cnt = N`; at write index 3 with all four entries listed. -/
theorem witness_PressAcceptWritesThePattern :
    let s := evalState 2 .press 1 2 2 3 1 digits 2
    s.phase = .eval ∧ s.st = .press ∧ s.r = s.prow ∧ s.c = s.pcol ∧ s.cnt = s.params.N ∧
    s.cnt + 1 > s.params.N ∧ keyDecode s.params s.prow s.pcol = some 5 := by decide

theorem witness_PressRejectReturnsToIdle :
    let s := evalState 2 .press 1 2 2 0 1 [] 0
    s.phase = .eval ∧ s.st = .press ∧ s.r = s.prow ∧ s.c ≠ s.pcol := by decide

theorem witness_ProcessWritesThePattern :
    let s := evalState 2 .process 2 4 2 3 0 digits 0
    s.phase = .eval ∧ s.st = .process ∧ keyDecode s.params s.prow s.pcol = some 9 := by decide

theorem witness_SentinelPairFaultsAtProcess :
    keyDecode (evalState 2 .process 2 3 0 0 0 [] 0).params 2 3 = none ∧
    keyDecode (evalState 2 .process 2 4 0 0 0 [] 0).params 2 4 ≠ none := by decide

theorem witness_ReleaseCountCountsTheEmptySample :
    let s := evalState 2 .release 1 2 1 1 1 digits 0
    s.phase = .eval ∧ s.st = .release ∧ s.r = s.prow ∧ s.c = 0b0000 ∧ s.cnt + 1 = s.params.N := by decide

theorem witness_ReleaseDoneReturnsToIdle :
    let s := evalState 2 .release 1 2 2 1 1 digits 0
    s.phase = .eval ∧ s.st = .release ∧ s.r = s.prow ∧ s.c = 0b0000 ∧ s.cnt = s.params.N ∧ s.cnt + 1 > s.params.N := by
  decide

theorem witness_ReleaseHoldClearsTheCounter :
    let s := evalState 2 .release 1 2 2 1 1 digits 5
    s.phase = .eval ∧ s.st = .release ∧ s.r = s.prow ∧ s.c ≠ 0b0000 := by decide

/-- Each clause: an FSM operation, and SCAN. -/
theorem witness_EveryItemHasOneWriter :
    (∃ t, exec .pressAccept (evalState 2 .press 1 2 2 0 1 [] 2) = .next t) ∧ (∀ kk, Instr.pressAccept ≠ .scan kk) ∧
    ∃ t, exec (.scan 3) (scanState 2 .idle 0 0 0 0 3 digits [8]) = .next t :=
  ⟨⟨_, rfl⟩, by decide, _, rfl⟩

/-- Each clause: an operation that writes BUF, one that does not, and SCAN. -/
theorem witness_BufferIsTheOnlyWritableSpace :
    (∃ t, exec .process (evalState 2 .process 2 4 2 3 0 digits 0) = .next t) ∧
    (∃ t, exec .releaseDone (evalState 2 .release 1 2 2 1 1 digits 0) = .next t) ∧
    (2 : Index) ≠ (evalState 2 .process 2 4 2 3 0 digits 0).widx :=
  ⟨⟨_, rfl⟩, ⟨_, rfl⟩, by decide⟩

theorem witness_RecordedKeyWrittenOnlyByIdleArm :
    (∃ t, exec .idleArm (evalState 2 .idle 1 2 3 1 1 digits 4) = .next t) ∧
    ∃ t, exec .releaseHold (evalState 2 .release 1 2 2 1 1 digits 5) = .next t :=
  ⟨⟨_, rfl⟩, _, rfl⟩

theorem witness_TablesAreImmutable :
    (∃ t, exec .idleArm (evalState 2 .idle 1 2 3 1 1 digits 4) = .next t) ∧
    ∃ t, ticks 2 (scanState 2 .idle 0 0 0 0 0 digits [1, 0]) = .next t :=
  ⟨⟨_, rfl⟩, _, rfl⟩

/-- A state in PRESS at the threshold that meets the invariant. -/
theorem witness_inv : (evalState 2 .press 1 2 2 0 1 digits 2).Inv where
  notProcess := by decide
  recordedValid := by decide
  cntBound := by decide
  cntPending := by decide
  selLegal := Or.inr ⟨1, by decide⟩
  bufWf := by decide

/-- A state in PRESS at the start of a tick that meets the invariant. -/
theorem witness_inv_scan : (scanState 2 .press 1 2 2 0 1 digits [2]).Inv where
  notProcess := by decide
  recordedValid := by decide
  cntBound := by decide
  cntPending := by decide
  selLegal := Or.inl rfl
  bufWf := by decide

theorem witness_StepKeepsInvariant :
    (evalState 2 .press 1 2 2 0 1 digits 2).Inv ∧ ∃ t, step (evalState 2 .press 1 2 2 0 1 digits 2) = .next t :=
  ⟨witness_inv, _, rfl⟩

theorem witness_NoStepStopsUnderTheInvariant : (evalState 2 .press 1 2 2 0 1 digits 2).Inv := witness_inv

theorem witness_StepKeepsSlotInvariant :
    (evalState 2 .press 1 2 2 0 1 digits 2).SlotInv ∧ (scanState 2 .press 1 2 2 0 1 digits [2]).SlotInv ∧
    ∃ t, step (evalState 2 .press 1 2 2 0 1 digits 2) = .next t :=
  ⟨⟨Or.inr (by decide), by decide⟩, ⟨Or.inl (by decide), by decide⟩, _, rfl⟩

theorem witness_RunsOfTicksComplete :
    (scanState 2 .press 1 2 2 0 1 digits [2]).Inv ∧ (scanState 2 .press 1 2 2 0 1 digits [2]).phase = .scan :=
  ⟨witness_inv_scan, by decide⟩

/-- `N = 2`: two bits hold `N + 1 = 3`. -/
theorem witness_CounterFitsInAWideEnoughRegister :
    (evalState 2 .press 1 2 2 0 1 digits 2).Inv ∧ (evalState 2 .press 1 2 2 0 1 digits 2).params.N + 2 ≤ 2 ^ 2 ∧
    ∃ t, step (evalState 2 .press 1 2 2 0 1 digits 2) = .next t :=
  ⟨witness_inv, by decide, _, rfl⟩

theorem witness_StaleRegistersAreUnobservableInIdle :
    (scanState 2 .idle 1 2 3 1 2 digits [4, 0]).phase = .scan ∧ (scanState 2 .idle 1 2 3 1 2 digits [4, 0]).st = .idle ∧
    ∃ t, ticks 2 (scanState 2 .idle 1 2 3 1 2 digits [4, 0]) = .next t :=
  ⟨by decide, by decide, _, rfl⟩

theorem witness_EveryTickShowsTheNextDigit :
    (scanState 2 .idle 1 2 3 1 2 digits [4, 0]).phase = .scan ∧
    ∃ t, ticks 1 (scanState 2 .idle 1 2 3 1 2 digits [4, 0]) = .next t ∧ ∃ u, tick t = .next u :=
  ⟨by decide, _, rfl, _, rfl⟩

theorem witness_OtherRowsHaveNoInfluence :
    let s := scanState 2 .release 1 2 2 1 0 digits []
    s.phase = .scan ∧ keyPending s = true ∧ s.k ≠ s.prow := by decide

/-- `N = 1`, key (1, 0010), with a GHOST in another row. -/
theorem witness_HeldKeyIsAcceptedOnTime :
    let s := scanState 1 .idle 0 0 0 0 1 digits [2, 3, 0, 1, 2, 0, 0, 0, 2]
    s.phase = .scan ∧ s.st = .idle ∧ keyDecode s.params s.k 2 = some 5 ∧
    ∀ j, j ≤ s.params.N + 1 → s.samples[4 * j]? = some 2 := by decide

theorem witness_PressOfNCountedSamplesIsRejected :
    let s := scanState 1 .idle 0 0 0 0 1 digits [2, 0, 0, 0, 2, 0, 0, 0, 3]
    s.phase = .scan ∧ s.st = .idle ∧ keyDecode s.params s.k 2 = some 5 ∧
    (∀ j, j ≤ s.params.N → s.samples[4 * j]? = some 2) ∧
    s.samples[4 * (s.params.N + 1)]? = some 3 ∧ (3 : Column) ≠ 2 := by decide

theorem witness_ReleaseIsConfirmedOnTime :
    let s := scanState 1 .release 1 2 0 1 1 digits [0, 0, 8, 0, 0]
    s.phase = .scan ∧ s.st = .release ∧ s.k = s.prow ∧ s.cnt = 0 ∧
    ∀ j, j ≤ s.params.N → s.samples[4 * j]? = some 0b0000 := by decide

/-- `N = 1`, one held sample after acceptance (`m = 1`). -/
theorem witness_CleanPressAndReleaseAppendsOneSymbol :
    let s := scanState 1 .idle 0 0 0 3 1 digits
      [2, 0, 0, 0, 2, 0, 0, 0, 2, 0, 0, 0, 10, 0, 0, 0, 0, 0, 0, 0, 0]
    s.phase = .scan ∧ s.st = .idle ∧ keyDecode s.params s.k 2 = some 5 ∧
    (∀ j, j ≤ s.params.N + 1 → s.samples[4 * j]? = some 2) ∧
    (∀ j, j ≤ s.params.N + 1 + 1 → s.params.N + 1 < j → s.samples[4 * j]? = some 10) ∧ (10 : Column) ≠ 0b0000 ∧
    (∀ j, j ≤ 2 * (s.params.N + 1) + 1 → s.params.N + 1 + 1 < j → s.samples[4 * j]? = some 0b0000) := by decide

theorem witness_HeldKeyKeepsTheMachineInRelease :
    let s := scanState 1 .release 1 2 1 1 1 digits [2, 0, 0, 0, 10]
    s.phase = .scan ∧ s.st = .release ∧ s.k = s.prow ∧
    s.samples[4 * 0]? = some 2 ∧ s.samples[4 * 1]? = some 10 := by decide

/-- Two empty or GHOST samples of rows 3 and 0, then a key of row 1. -/
theorem witness_FirstValidKeyInScanOrderIsArmed :
    let s := scanState 1 .idle 0 0 0 0 3 digits [0, 5, 4]
    s.phase = .scan ∧ s.st = .idle ∧
    (s.samples[0]? = some 0 ∧ keyDecode s.params (s.k + BitVec.ofNat 2 0) 0 = none) ∧
    (s.samples[1]? = some 5 ∧ keyDecode s.params (s.k + BitVec.ofNat 2 1) 5 = none) ∧
    s.samples[2]? = some 4 ∧ keyDecode s.params (s.k + BitVec.ofNat 2 2) 4 = some 6 := by decide

/-- Write index 3 in the tick of slot 3 (shown four ticks later, V15), and write index 0 (shown in the next tick). -/
theorem witness_AcceptedPatternIsShownWithinFourTicks :
    let s := scanState 1 .press 3 1 1 3 3 digits [1, 0, 0, 0, 0]
    s.phase = .scan ∧ s.st = .press ∧ s.k = s.prow ∧ s.samples = s.pcol :: [0, 0, 0, 0] ∧ s.cnt + 1 > s.params.N ∧
    keyDecode s.params s.prow s.pcol = some 14 ∧ (s.k.toNat + 4) % 4 = s.widx.toNat ∧
    (s.k.toNat + 1) % 4 = (scanState 1 .press 3 1 1 0 3 digits [1]).widx.toNat := by decide

theorem witness_IdleIsAlwaysReachable :
    (scanState 2 .press 1 2 2 0 1 digits [2]).Inv ∧ (scanState 2 .press 1 2 2 0 1 digits [2]).phase = .scan :=
  ⟨witness_inv_scan, by decide⟩

/-- A GHOST sample in a state with the invariant, in IDLE, in PRESS and in RELEASE. -/
theorem witness_GhostSamplesAreNeverAccepted :
    ((evalState 2 .idle 1 2 2 0 1 digits 6).Inv ∧ (evalState 2 .press 1 2 2 0 1 digits 6).Inv ∧
      (evalState 2 .release 1 2 2 0 1 digits 6).Inv) ∧
    (let s := evalState 2 .press 1 2 2 0 1 digits 6
     s.phase = .eval ∧ columnClass s.c = .ghost ∧ s.st = .press ∧ s.r = s.prow) ∧
    (let s := evalState 2 .release 1 2 2 0 1 digits 6
     s.phase = .eval ∧ columnClass s.c = .ghost ∧ s.st = .release ∧ s.r = s.prow) ∧
    (let s := evalState 2 .idle 1 2 2 0 1 digits 6
     s.phase = .eval ∧ columnClass s.c = .ghost ∧ s.st = .idle) :=
  ⟨⟨⟨by decide, by decide, by decide, by decide, Or.inr ⟨1, by decide⟩, by decide⟩,
    ⟨by decide, by decide, by decide, by decide, Or.inr ⟨1, by decide⟩, by decide⟩,
    ⟨by decide, by decide, by decide, by decide, Or.inr ⟨1, by decide⟩, by decide⟩⟩,
    by decide, by decide, by decide⟩

theorem witness_DecodeIsTheCompositionOfTheTables :
    keyDecode (defaultParams 1) 3 4 = some 15 ∧ keyDecode (defaultParams 1) 3 3 = none := by decide

theorem witness_BufPushWritesThenAdvances :
    (2 : Index) ≠ (scanState 2 .press 1 2 2 3 1 digits [2]).widx := by decide

/-- Five patterns from write index 0: pattern 4 stands at entry 0; one pattern: entry 3 is not reached. -/
theorem witness_DisplayHoldsTheLastFourPatterns :
    (scanState 2 .press 1 2 2 0 1 digits [2]).widx = 0 ∧
    ([0x99, 0xA4, 0xB0, 0x88, 0x92] : List Byte)[4]? = some 0x92 ∧ 4 % 4 = (0 : Index).toNat ∧
    ([0x99, 0xA4, 0xB0, 0x88, 0x92] : List Byte).length ≤ 4 + 4 ∧
    ([0x99] : List Byte).length ≤ (3 : Index).toNat := by decide

end Sys2Proof.Tests
end

section
/-!
SUPPORT. What an operation and a step can do, said once: the inversion of `exec`, the operation that each FSM state
selects, and the step of each half of the tick.
-/

namespace Sys2Proof.Machine

/-- `PROCESS` as a record update (R87): only the Display Buffer, its index, the counter and `st` are written. -/
theorem processRecorded_frame (s t : State) (h : processRecorded s = .next t) :
    ∃ pat, t = { s with buf := s.buf.write s.widx.toNat pat, widx := s.widx + 1, cnt := 0, st := .release } := by
  obtain ⟨x, -, rfl⟩ := processRecorded_cases s t h
  exact ⟨segEncode s.params (some x), rfl⟩

/-- Everything an operation can do when it answers a next state: SCAN serves its slot, IDLE_ARM records the tick's
operands, PROCESS and PRESS_ACCEPT push a pattern, and the others write at most `st` and `cnt`. -/
theorem exec_cases (i : Instr) (s t : State) (h : exec i s = .next t) :
    (∃ kk, i = .scan kk ∧
      t = { s with sel := onecold4 kk, seg := bufRead kk s, c := portReadCol s, r := kk, k := kk + 1,
                   samples := s.samples.tail, drawn := s.drawn + 1 }) ∨
    (i = .idleArm ∧ t = { s with prow := s.r, pcol := s.c, cnt := 0, st := .press }) ∨
    ((i = .process ∨ i = .pressAccept) ∧ ∃ pat,
      t = { s with buf := s.buf.write s.widx.toNat pat, widx := s.widx + 1, cnt := 0, st := .release }) ∨
    ((∀ kk, i ≠ .scan kk) ∧ i ≠ .idleArm ∧ ∃ st cnt, cnt ≤ s.cnt + 1 ∧ t = { s with st := st, cnt := cnt }) := by
  cases i with
  | scan kk => rw [exec_scan] at h; cases h; exact .inl ⟨kk, rfl, rfl⟩
  | idleArm => cases h; exact .inr (.inl ⟨rfl, rfl⟩)
  | process => exact .inr (.inr (.inl ⟨.inl rfl, processRecorded_frame s t h⟩))
  | pressAccept => exact .inr (.inr (.inl ⟨.inr rfl, processRecorded_frame _ t h⟩))
  | idleStay | pressSkip | releaseSkip | pressReject =>
    cases h; exact .inr (.inr (.inr ⟨nofun, nofun, _, s.cnt, by omega, rfl⟩))
  | pressCount | releaseCount | releaseDone =>
    cases h; exact .inr (.inr (.inr ⟨nofun, nofun, _, s.cnt + 1, by omega, rfl⟩))
  | releaseHold => cases h; exact .inr (.inr (.inr ⟨nofun, nofun, _, 0, by omega, rfl⟩))

/-- No operation counts more than once (R84, R89). -/
theorem exec_cnt_le (i : Instr) (s t : State) (h : exec i s = .next t) : t.cnt ≤ s.cnt + 1 := by
  obtain ⟨_, -, rfl⟩ | ⟨-, rfl⟩ | ⟨-, _, rfl⟩ | ⟨-, -, _, _, hcnt, rfl⟩ := exec_cases i s t h
  · exact Nat.le_succ s.cnt
  · exact Nat.zero_le _
  · exact Nat.zero_le _
  · exact hcnt

/-! ### The operation that each FSM state selects -/

theorem selected_of_idle (s : State) (h : s.st = .idle) :
    decodeCond (condWord s) = some (if validKey s then .idleArm else .idleStay) := by
  unfold condWord; rw [h]; exact decodeCond_idle ..

theorem selected_of_press (s : State) (h : s.st = .press) :
    decodeCond (condWord s) =
      some (if !rowMatch s then .pressSkip else if !sameColumn s then .pressReject
        else if overThreshold s then .pressAccept else .pressCount) := by
  unfold condWord; rw [h]; exact decodeCond_press ..

theorem selected_of_process (s : State) (h : s.st = .process) :
    decodeCond (condWord s) = some .process := by
  unfold condWord; rw [h]; exact decodeCond_process ..

theorem selected_of_release (s : State) (h : s.st = .release) :
    decodeCond (condWord s) =
      some (if !rowMatch s then .releaseSkip else if nonZero s then .releaseHold
        else if overThreshold s then .releaseDone else .releaseCount) := by
  unfold condWord; rw [h]; exact decodeCond_release ..

/-- Every condition word selects an operation (R59). -/
theorem exists_selected (s : State) : ∃ i, decodeCond (condWord s) = some i := by
  cases h : s.st with
  | idle => exact ⟨_, selected_of_idle s h⟩
  | press => exact ⟨_, selected_of_press s h⟩
  | process => exact ⟨_, selected_of_process s h⟩
  | release => exact ⟨_, selected_of_release s h⟩

/-! ### Steps -/

/-- The state between the two halves of a tick: SCAN has served the slot `k` and the FSM evaluation is next. -/
def afterScan (s : State) : State :=
  { s with sel := onecold4 s.k, seg := bufRead s.k s, c := portReadCol s, r := s.k, k := s.k + 1,
           samples := s.samples.tail, drawn := s.drawn + 1, phase := .eval }

theorem step_scan (s : State) (h : s.phase = .scan) : step s = .next (afterScan s) := by
  rw [step_at_scan s h, exec_scan]; rfl

/-- The FSM evaluation in IDLE arms the tick's operands where they are a valid key, and otherwise changes nothing. -/
theorem step_idle (s : State) (hp : s.phase = .eval) (hst : s.st = .idle) :
    step s = .next (if validKey s then { s with prow := s.r, pcol := s.c, cnt := 0, st := .press, phase := .scan }
      else { s with phase := .scan }) := by
  rw [step_at_eval s _ hp (selected_of_idle s hst)]
  cases validKey s <;> rfl

/-- Everything a step can do when it answers a next state. -/
theorem step_cases (s t : State) (h : step s = .next t) :
    (s.phase = .scan ∧ t = afterScan s) ∨
    (s.phase = .eval ∧ ∃ i u, decodeCond (condWord s) = some i ∧ exec i s = .next u ∧
      t = { u with phase := .scan }) := by
  cases hp : s.phase with
  | scan => rw [step_scan s hp] at h; cases h; exact .inl ⟨rfl, rfl⟩
  | eval =>
    obtain ⟨i, hi⟩ := exists_selected s
    rw [step_at_eval s i hp hi, afterNext_eq_next] at h
    obtain ⟨u, hu, ht⟩ := h
    cases ht
    exact .inr ⟨rfl, i, u, hi, hu, rfl⟩

end Sys2Proof.Machine
end

section
/-!
Who writes what (O24, O26).
-/

namespace Sys2Proof.Machine

/-- An FSM operation leaves the scan index, the latches, the operands and the input as they were (R18, R20). -/
theorem exec_fsm_keeps_scan_items (i : Instr) (s t : State) (hi : ∀ kk, i ≠ .scan kk) (h : exec i s = .next t) :
    t.k = s.k ∧ t.sel = s.sel ∧ t.seg = s.seg ∧ t.r = s.r ∧ t.c = s.c ∧
      t.samples = s.samples ∧ t.drawn = s.drawn := by
  obtain ⟨kk, rfl, -⟩ | ⟨-, rfl⟩ | ⟨-, _, rfl⟩ | ⟨-, -, _, _, -, rfl⟩ := exec_cases i s t h
  · exact absurd rfl (hi kk)
  all_goals exact ⟨rfl, rfl, rfl, rfl, rfl, rfl, rfl⟩

/-- SCAN leaves the FSM registers and the Display Buffer as they were (R18). -/
theorem exec_scan_keeps_fsm_items (kk : Index) (s t : State) (h : exec (.scan kk) s = .next t) :
    t.st = s.st ∧ t.prow = s.prow ∧ t.pcol = s.pcol ∧ t.cnt = s.cnt ∧ t.widx = s.widx ∧
      ∀ j, bufRead j t = bufRead j s := by
  rw [exec_scan] at h
  cases h
  exact ⟨rfl, rfl, rfl, rfl, rfl, fun _ => rfl⟩

/-- Settles O24: each clause is the frame of one side of the split. -/
theorem everyItemHasOneWriter : Obligations.EveryItemHasOneWriter := by
  intro i s t h
  refine ⟨fun hi => exec_fsm_keeps_scan_items i s t hi h, ?_⟩
  rintro kk rfl
  exact exec_scan_keeps_fsm_items kk s t h

/-- Settles O26, by what each operation can do. -/
theorem recordedKeyWrittenOnlyByIdleArm : Obligations.RecordedKeyWrittenOnlyByIdleArm := by
  intro i s t h
  obtain ⟨_, rfl, rfl⟩ | ⟨rfl, rfl⟩ | ⟨rfl | rfl, _, rfl⟩ | ⟨-, hne, _, _, -, rfl⟩ := exec_cases i s t h
  case inr.inl => exact ⟨fun hne => absurd rfl hne, fun _ => ⟨rfl, rfl⟩⟩
  case inr.inr.inr => exact ⟨fun _ => ⟨rfl, rfl⟩, fun he => absurd he hne⟩
  all_goals exact ⟨fun _ => ⟨rfl, rfl⟩, nofun⟩

end Sys2Proof.Machine
end

section
/-!
The range of the counter (O34).
-/

namespace Sys2Proof.Machine

/-- The FSM evaluation in IDLE never counts (R81, R82). -/
theorem step_idle_cnt_le (s t : State) (hp : s.phase = .eval) (hst : s.st = .idle) (h : step s = .next t) :
    t.cnt ≤ s.cnt := by
  rw [step_idle s hp hst] at h
  cases h
  split
  · exact Nat.zero_le _
  · exact le_rfl

/-- From a state with the invariant the counter stays within `N + 1` (R128): a key that is pending leaves room for one
more pulse, and IDLE does not count. -/
theorem step_cnt_le (s t : State) (hs : s.Inv) (h : step s = .next t) : t.cnt ≤ s.params.N + 1 := by
  obtain ⟨-, rfl⟩ | ⟨hp, i, u, -, hu, rfl⟩ := step_cases s t h
  · exact hs.cntBound
  have hcount : u.cnt ≤ s.cnt + 1 := exec_cnt_le i s u hu
  cases hst : s.st with
  | idle => exact (step_idle_cnt_le s _ hp hst h).trans hs.cntBound
  | process => exact absurd hst hs.notProcess
  | press | release =>
    have hpending : s.cnt ≤ s.params.N := hs.cntPending (by simp [keyPending, hst])
    exact hcount.trans (Nat.succ_le_succ hpending)

/-- Settles O34: the counter after the step is at most `N + 1`, which a register of `w` bits holds. -/
theorem counterFitsInAWideEnoughRegister : Obligations.CounterFitsInAWideEnoughRegister := by
  intro s t w hs hw h
  have hcnt : t.cnt ≤ s.params.N + 1 := step_cnt_le s t hs h
  rw [BitVec.toNat_ofNat]
  exact Nat.mod_eq_of_lt (by omega)

end Sys2Proof.Machine
end

section
/-!
The registers that are stale in IDLE (O37): a tick in IDLE either arms, and overwrites all of them, or leaves two states
that again differ only in them.
-/

namespace Sys2Proof.Machine

/-- `s` with any contents of the registers that IDLE does not look at, and of the operands of the tick before. -/
def withStale (a : Index) (b : Column) (m : Nat) (r : Index) (c : Column) (s : State) : State :=
  { s with prow := a, pcol := b, cnt := m, r := r, c := c }

/-- SCAN overwrites the operands and carries the stale registers along. -/
theorem afterScan_withStale (a : Index) (b : Column) (m : Nat) (r : Index) (c : Column) (s : State) :
    afterScan (withStale a b m r c s) =
      withStale a b m (afterScan s).r (afterScan s).c (afterScan s) := rfl

/-- A tick in IDLE: SCAN, and then arming or nothing. -/
theorem tick_idle (s : State) (hp : s.phase = .scan) (hst : s.st = .idle) :
    tick s = .next (if validKey (afterScan s)
      then { afterScan s with prow := s.k, pcol := portReadCol s, cnt := 0, st := .press, phase := .scan }
      else { afterScan s with phase := .scan }) := by
  unfold tick
  rw [step_scan s hp, afterNext_next, step_idle (afterScan s) rfl hst]
  rfl

/-- A tick in IDLE whose sample is a valid key gives the same state whatever the stale registers hold (R82). -/
theorem tick_withStale_of_key (a : Index) (b : Column) (m : Nat) (r : Index) (c : Column) (s : State)
    (hp : s.phase = .scan) (hst : s.st = .idle) (hkey : validKey (afterScan s) = true) :
    tick (withStale a b m r c s) = tick s := by
  have hkey' : validKey (afterScan (withStale a b m r c s)) = true := hkey
  rw [tick_idle (withStale a b m r c s) hp hst, tick_idle s hp hst, if_pos hkey, if_pos hkey']
  rfl

/-- A tick in IDLE without a valid key stays in IDLE and keeps the stale registers (R81). -/
theorem tick_withStale_of_noKey (a : Index) (b : Column) (m : Nat) (r : Index) (c : Column) (s : State)
    (hp : s.phase = .scan) (hst : s.st = .idle) (hkey : validKey (afterScan s) ≠ true) :
    tick (withStale a b m r c s) =
      .next (withStale a b m s.k (portReadCol s) { afterScan s with phase := .scan }) := by
  have hkey' : validKey (afterScan (withStale a b m r c s)) ≠ true := hkey
  rw [tick_idle (withStale a b m r c s) hp hst, if_neg hkey', afterScan_withStale]
  rfl

/-- Settles O37, by induction on the number of ticks: an arming tick makes the two states equal, and any other tick
leaves them different in the stale registers alone. -/
theorem staleRegistersAreUnobservableInIdle : Obligations.StaleRegistersAreUnobservableInIdle := by
  intro n
  induction n with
  | zero =>
    intro s t a b m r c hp hst h
    cases h
    exact ⟨_, rfl, rfl, rfl, rfl, rfl, rfl, fun _ => rfl⟩
  | succ n ih =>
    intro s t a b m r c hp hst h
    change ∃ u, ticks (n + 1) (withStale a b m r c s) = .next u ∧ _
    rw [ticks_succ] at h ⊢
    by_cases hkey : validKey (afterScan s) = true
    · rw [tick_withStale_of_key a b m r c s hp hst hkey]
      exact ⟨t, h, rfl, rfl, rfl, rfl, rfl, fun _ => rfl⟩
    · rw [tick_idle s hp hst, if_neg hkey, afterNext_next] at h
      rw [tick_withStale_of_noKey a b m r c s hp hst hkey, afterNext_next]
      exact ih { afterScan s with phase := .scan } t a b m s.k (portReadCol s) rfl hst h

end Sys2Proof.Machine
end

section
/-!
Reset (O29, O32, O35).
-/

namespace Sys2Proof.Machine

/-- Right after reset every entry of the Display Buffer reads as the blank pattern (R24). -/
@[simp] theorem bufRead_resetWith (i : Index) (P : Params) (cs : List Column) (n : Nat) :
    bufRead i (State.resetWith P cs n) = 0xFF := Memory.read_nil i.toNat

theorem keyPending_resetWith (P : Params) (cs : List Column) (n : Nat) :
    keyPending (State.resetWith P cs n) = false := rfl

theorem resetWith_inv (P : Params) (cs : List Column) (n : Nat) : (State.resetWith P cs n).Inv where
  notProcess := nofun
  recordedValid := by simp [keyPending_resetWith]
  cntBound := Nat.zero_le _
  cntPending := by simp [keyPending_resetWith]
  selLegal := .inl rfl
  bufWf := Memory.wf_nil

/-- Before the first column read nothing is selected, and the first step is a SCAN. -/
theorem resetWith_slotInv (P : Params) (cs : List Column) : (State.resetWith P cs 0).SlotInv where
  selServed := .inl ⟨rfl, rfl, rfl⟩
  rowServed := nofun

/-- Settles O29: reset is the reset with the device's parameters and an empty input. -/
theorem resetMeetsInvariant : Obligations.ResetMeetsInvariant :=
  ⟨resetWith_inv Config.params [] 0, resetWith_inv⟩

/-- Settles O32: reset is the reset with the device's parameters and no samples. -/
theorem resetMeetsSlotInvariant : Obligations.ResetMeetsSlotInvariant :=
  ⟨resetWith_slotInv Config.params [], resetWith_slotInv⟩

/-- Settles O35: the registers by definition, the Display Buffer because nothing is listed in it. -/
theorem resetState : Obligations.ResetState := by
  have hbuf : ∀ i, bufRead i State.reset = 0xFF := fun i => bufRead_resetWith i Config.params [] 0
  exact ⟨rfl, rfl, rfl, rfl, rfl, rfl, fun i => ⟨by rw [hbuf, segEncode_blank], hbuf i⟩, rfl, rfl, rfl⟩

end Sys2Proof.Machine
end

section
/-!
What the memory holds and who writes it (O25, O27).
-/

namespace Sys2Proof.Machine

/-- What an operation can do to the Display Buffer (R33): nothing, or the push of one pattern, by PROCESS or by
PRESS_ACCEPT, which runs it. -/
theorem exec_buffer_cases (i : Instr) (s t : State) (h : exec i s = .next t) :
    (t.widx = s.widx ∧ ∀ j, bufRead j t = bufRead j s) ∨
    ((i = .process ∨ i = .pressAccept) ∧ ∃ pat, ∀ j, bufRead j t = bufRead j (bufPush pat s)) := by
  obtain ⟨_, -, rfl⟩ | ⟨-, rfl⟩ | ⟨hi, pat, rfl⟩ | ⟨-, -, _, _, -, rfl⟩ := exec_cases i s t h
  case inr.inr.inl => exact .inr ⟨hi, pat, fun _ => rfl⟩
  all_goals exact .inl ⟨rfl, fun _ => rfl⟩

/-- `BufPush` leaves every entry but the one at the write index (R107). -/
theorem bufRead_bufPush_of_ne (pat : Byte) (s : State) (j : Index) (hj : j ≠ s.widx) :
    bufRead j (bufPush pat s) = bufRead j s := by
  rw [(bufPush_spec pat s).1, if_neg hj.symm]

/-- `BufPush` puts its pattern at the write index (R107). -/
theorem bufRead_bufPush_same (pat : Byte) (s : State) : bufRead s.widx (bufPush pat s) = pat := by
  rw [(bufPush_spec pat s).1, if_pos rfl]

/-- No operation writes the parameters, in which the tables stand (R32). -/
theorem exec_keeps_params (i : Instr) (s t : State) (h : exec i s = .next t) : t.params = s.params := by
  obtain ⟨_, -, rfl⟩ | ⟨-, rfl⟩ | ⟨-, _, rfl⟩ | ⟨-, -, _, _, -, rfl⟩ := exec_cases i s t h
  all_goals rfl

theorem step_keeps_params (s t : State) (h : step s = .next t) : t.params = s.params := by
  obtain ⟨-, rfl⟩ | ⟨-, i, u, -, hu, rfl⟩ := step_cases s t h
  · rfl
  · exact exec_keeps_params i s u hu

/-- What every step keeps, a run of ticks keeps. -/
theorem ticks_keep (P : State → Prop) (hstep : ∀ s t, P s → step s = .next t → P t) (n : Nat) :
    ∀ s t, P s → ticks n s = .next t → P t := by
  induction n with
  | zero => intro s t hs h; cases h; exact hs
  | succ n ih =>
    intro s t hs h
    rw [ticks_succ, afterNext_eq_next] at h
    obtain ⟨u, htick, hrest⟩ := h
    unfold tick at htick
    rw [afterNext_eq_next] at htick
    obtain ⟨v, hscan, heval⟩ := htick
    exact ih u t (hstep v u (hstep s v hs hscan) heval) hrest

theorem ticks_keep_params (n : Nat) (s t : State) (h : ticks n s = .next t) : t.params = s.params :=
  ticks_keep (·.params = s.params) (fun u v hu huv => (step_keeps_params u v huv).trans hu) n s t rfl h

/-- Settles O25: the buffer is left alone or gets one push, the parameters are never written, and the latches are
SCAN's. -/
theorem bufferIsTheOnlyWritableSpace : Obligations.BufferIsTheOnlyWritableSpace := by
  intro i s t h
  refine ⟨exec_keeps_params i s t h, ?_, ?_, fun hi => ?_⟩
  · intro j hj
    obtain ⟨-, hsame⟩ | ⟨-, pat, hpush⟩ := exec_buffer_cases i s t h
    · exact hsame j
    · exact (hpush j).trans (bufRead_bufPush_of_ne pat s j hj)
  · intro hprocess haccept
    obtain hsame | ⟨rfl | rfl, -⟩ := exec_buffer_cases i s t h
    · exact hsame
    · exact absurd rfl hprocess
    · exact absurd rfl haccept
  · obtain ⟨-, hsel, hseg, -⟩ := exec_fsm_keeps_scan_items i s t hi h
    exact ⟨hsel, hseg⟩

/-- Settles O27: the tables are functions of the parameters, which no operation and so no run writes. -/
theorem tablesAreImmutable : Obligations.TablesAreImmutable := by
  refine ⟨fun i s t h => ?_, fun n s t h => ?_⟩
  · rw [exec_keeps_params i s t h]
    exact ⟨fun _ _ => rfl, fun _ => rfl⟩
  · rw [ticks_keep_params n s t h]
    exact ⟨fun _ _ => rfl, fun _ => rfl⟩

end Sys2Proof.Machine
end

section
/-!
When an accepted pattern is shown (O46): the ticks after the acceptance up to the recorded row's next turn are of other
rows and only SCAN acts in them, so the scan reaches the new entry before anything can stop or overwrite it.
-/

namespace Sys2Proof.Machine

/-- From the start of a tick: SCAN, then the FSM evaluation of the state it left (R116). -/
theorem tick_eq_step_afterScan (s : State) (hp : s.phase = .scan) : tick s = step (afterScan s) := by
  unfold tick
  rw [step_scan s hp, afterNext_next]

/-- While a key is pending, the evaluation of another row's sample changes nothing (R83, R88). -/
theorem step_otherRow (s : State) (hp : s.phase = .eval) (hkey : keyPending s = true) (hrow : s.r ≠ s.prow) :
    step s = .next { s with phase := .scan } := by
  have hrm : rowMatch s = false := by simpa [rowMatch, operandRow] using hrow
  have hst : s.st = .press ∨ s.st = .release := by simpa [keyPending] using hkey
  obtain hst | hst := hst
  · rw [step_at_eval s .pressSkip hp (by simp [selected_of_press s hst, hrm])]
    rfl
  · rw [step_at_eval s .releaseSkip hp (by simp [selected_of_release s hst, hrm])]
    rfl

/-- While a key is pending, a tick of another row is its SCAN (R93). -/
theorem tick_otherRow (s : State) (hp : s.phase = .scan) (hkey : keyPending s = true) (hrow : s.k ≠ s.prow) :
    tick s = .next { afterScan s with phase := .scan } := by
  rw [tick_eq_step_afterScan s hp]
  exact step_otherRow (afterScan s) rfl hkey hrow

/-- The slot `n + 1` places on is the one after the slot `n` places on. -/
theorem add_ofNat_succ (k : Index) (n : Nat) : k + BitVec.ofNat 2 (n + 1) = k + BitVec.ofNat 2 n + 1 := by
  rw [BitVec.ofNat_add, BitVec.add_assoc]
  rfl

/-- While a key is pending, `n` ticks of other rows only write what their SCANs write. -/
theorem ticks_otherRows (n : Nat) (s : State) (hp : s.phase = .scan) (hkey : keyPending s = true)
    (hrows : ∀ j, j < n → s.k + BitVec.ofNat 2 j ≠ s.prow) :
    ∃ sel seg r c, ticks n s =
      .next { s with sel := sel, seg := seg, k := s.k + BitVec.ofNat 2 n, r := r, c := c,
                     samples := s.samples.drop n, drawn := s.drawn + n, phase := .scan } := by
  induction n with
  | zero => exact ⟨s.sel, s.seg, s.r, s.c, by rw [← hp]; simp⟩
  | succ n ih =>
    obtain ⟨sel, seg, r, c, hrun⟩ := ih fun j hj => hrows j (hj.trans n.lt_succ_self)
    rw [ticks_add, hrun, afterNext_next, ticks_succ, tick_otherRow, add_ofNat_succ, ← List.tail_drop]
    · exact ⟨_, _, _, _, rfl⟩
    · rfl
    · exact hkey
    · exact hrows n n.lt_succ_self

/-- The FSM evaluation in RELEASE always completes, and writes at most `st` and `cnt` (R88 to R91). -/
theorem step_release (s : State) (hp : s.phase = .eval) (hst : s.st = .release) :
    ∃ st cnt, step s = .next { s with st := st, cnt := cnt, phase := .scan } := by
  rw [step_at_eval s _ hp (selected_of_release s hst)]
  split_ifs
  · exact ⟨s.st, s.cnt, rfl⟩
  · exact ⟨s.st, 0, rfl⟩
  · exact ⟨.idle, s.cnt + 1, rfl⟩
  · exact ⟨s.st, s.cnt + 1, rfl⟩

/-- A tick in RELEASE selects the digit `k` and shows its entry (R71, R73). -/
theorem tick_release_shows (s : State) (hp : s.phase = .scan) (hst : s.st = .release) :
    ∃ u, ticks 1 s = .next u ∧ u.sel = onecold4 s.k ∧ u.seg = bufRead s.k s := by
  obtain ⟨st, cnt, hstep⟩ := step_release (afterScan s) rfl hst
  rw [ticks_succ, tick_eq_step_afterScan s hp, hstep]
  exact ⟨_, rfl, rfl, rfl⟩

/-- The state after the FSM evaluation that accepts the key `x` (R85, R87). -/
def afterAccept (x : Fin 16) (s : State) : State :=
  { bufPush (s.params.segtab.get x) s with cnt := 0, st := .release, phase := .scan }

/-- The accepted pattern stands at the entry that was the write index. -/
theorem bufRead_afterAccept (x : Fin 16) (s : State) :
    bufRead s.widx (afterAccept x s) = s.params.segtab.get x :=
  bufRead_bufPush_same (s.params.segtab.get x) s

/-- In PRESS the matching sample above the threshold pushes the recorded key's pattern and enters RELEASE (R85, R87). -/
theorem step_pressAccept (s : State) (x : Fin 16) (hp : s.phase = .eval) (hst : s.st = .press) (hrow : s.r = s.prow)
    (hcol : s.c = s.pcol) (hcnt : s.cnt + 1 > s.params.N) (hx : recordedEntry s = some x) :
    step s = .next (afterAccept x s) := by
  have hrm : rowMatch s = true := by simpa [rowMatch, operandRow] using hrow
  have heq : sameColumn s = true := by simpa [sameColumn, operandCol] using hcol
  have hth : overThreshold s = true := decide_eq_true hcnt
  have hexec : exec .pressAccept s = _ := processRecorded_of_key ((countPulse s).setSt .process) x hx
  rw [step_at_eval s .pressAccept hp (by simp [selected_of_press s hst, hrm, heq, hth]), hexec]
  rfl

/-- A slot `d` places on from `k` is not the slot `k` again for `d` in 1 to 3. -/
theorem add_ofNat_ne_self (k : Index) (d : Nat) (hpos : 0 < d) (hlt : d < 4) : k + BitVec.ofNat 2 d ≠ k := by
  intro h
  have hmod : (k.toNat + d % 2 ^ 2) % 2 ^ 2 = k.toNat := by
    simpa only [BitVec.toNat_add, BitVec.toNat_ofNat] using congrArg BitVec.toNat h
  have hk : k.toNat < 2 ^ 2 := k.isLt
  omega

/-- In RELEASE, right after the tick of the recorded row, the scan reaches the digit `d` places on from that row `d` ticks
later, `d` from 1 to 4, and shows what its entry held. -/
theorem ticks_release_shows (s : State) (d : Nat) (hp : s.phase = .scan) (hst : s.st = .release)
    (hk : s.k = s.prow + 1) (hpos : 1 ≤ d) (hle : d ≤ 4) :
    ∃ u, ticks d s = .next u ∧ u.sel = onecold4 (s.prow + BitVec.ofNat 2 d) ∧
      u.seg = bufRead (s.prow + BitVec.ofNat 2 d) s := by
  obtain ⟨n, rfl⟩ : ∃ n, d = n + 1 := ⟨d - 1, by omega⟩
  have hslot (j : Nat) : s.k + BitVec.ofNat 2 j = s.prow + BitVec.ofNat 2 (j + 1) := by
    rw [hk, add_ofNat_succ, add_right_comm]
  have hrows : ∀ j, j < n → s.k + BitVec.ofNat 2 j ≠ s.prow := fun j hj => by
    rw [hslot]
    exact add_ofNat_ne_self s.prow (j + 1) (by omega) (by omega)
  obtain ⟨_, _, _, _, hrun⟩ := ticks_otherRows n s hp (by simp [keyPending, hst]) hrows
  rw [ticks_add, hrun, afterNext_next, ← hslot n]
  exact tick_release_shows _ rfl hst

/-- Settles O46: SCAN reads the buffer before the push of the same tick, and the ticks after it reach the entry while
RELEASE holds it. -/
theorem acceptedPatternIsShownWithinFourTicks : Obligations.AcceptedPatternIsShownWithinFourTicks := by
  intro s x xs hp hst hk hsamples hcnt hx
  have haccept : tick s = .next (afterAccept x (afterScan s)) := by
    rw [tick_eq_step_afterScan s hp]
    exact step_pressAccept (afterScan s) x rfl hst hk (portReadCol_cons s s.pcol xs hsamples) hcnt hx
  have hpattern : bufRead s.widx (afterAccept x (afterScan s)) = s.params.segtab.get x :=
    bufRead_afterAccept x (afterScan s)
  refine ⟨_, haccept, rfl, hpattern, fun d hpos hle hd => ?_⟩
  have hwidx : (afterAccept x (afterScan s)).prow + BitVec.ofNat 2 d = s.widx := by
    change s.prow + _ = _
    apply BitVec.eq_of_toNat_eq
    rw [← hk, BitVec.toNat_add, BitVec.toNat_ofNat, ← hd]
    omega
  have hshow := ticks_release_shows (afterAccept x (afterScan s)) d rfl rfl (congrArg (· + 1) hk) hpos hle
  rwa [hwidx, hpattern] at hshow

end Sys2Proof.Machine
end

section
/-!
The words of the operations (O1, O2, O3): the rows of the operation map exclude one another and leave no condition word
out, so a word decodes to an operation exactly where it is that operation's own word on the bits it looks at.
-/

namespace Sys2Proof.Machine

/-! ### The operation map -/

/-- Two rows of the operation map differ in a bit that both of them look at. -/
theorem condRows_disagree : ∀ a ∈ condRows, ∀ b ∈ condRows, a ≠ b → a.pattern &&& b.mask ≠ b.pattern &&& a.mask := by
  decide

/-- The operation map leaves no condition word out (R59). -/
theorem exists_row (cw : CondWord) : ∃ row ∈ condRows, cw &&& row.mask = row.pattern := by
  revert cw; decide

/-- Rows that match the same condition word are the same row: on the bits both look at, each pattern is the word's. -/
theorem row_unique (cw : CondWord) (a b : CondRow) (ha : a ∈ condRows) (hb : b ∈ condRows)
    (hca : cw &&& a.mask = a.pattern) (hcb : cw &&& b.mask = b.pattern) : a = b := by
  by_contra hne
  have hshared : a.pattern &&& b.mask = b.pattern &&& a.mask := by
    rw [← hca, ← hcb, BitVec.and_assoc, BitVec.and_assoc, BitVec.and_comm a.mask]
  exact condRows_disagree a ha b hb hne hshared

/-- Settles O3: a row matches every condition word, and no two rows match the same one. -/
theorem exactlyOneRowMatchesEveryConditionWord : Obligations.ExactlyOneRowMatchesEveryConditionWord := by
  intro cw
  obtain ⟨row, hrow, hmatch⟩ := exists_row cw
  exact ⟨row, ⟨hrow, hmatch⟩, fun other ⟨hother, hmatch'⟩ => row_unique cw other row hother hrow hmatch' hmatch⟩

theorem rowMatches_iff (cw : CondWord) (row : CondRow) :
    rowMatches cw row = true ↔ cw &&& row.mask = row.pattern := beq_iff_eq

/-- The decoder takes the first row that matches, which is the only one. -/
theorem decodeCond_of_row (cw : CondWord) (row : CondRow) (hrow : row ∈ condRows)
    (hmatch : cw &&& row.mask = row.pattern) : decodeCond cw = some row.instr := by
  have hsome : (condRows.find? (rowMatches cw)).isSome = true :=
    List.find?_isSome.2 ⟨row, hrow, (rowMatches_iff cw row).2 hmatch⟩
  obtain ⟨found, hfound⟩ := Option.isSome_iff_exists.1 hsome
  have hfoundMatch : cw &&& found.mask = found.pattern := (rowMatches_iff cw found).1 (List.find?_some hfound)
  rw [decodeCond, hfound, row_unique cw found row (List.mem_of_find?_eq_some hfound) hrow hfoundMatch hmatch]
  rfl

theorem decodeCond_eq_some_iff (cw : CondWord) (i : Instr) :
    decodeCond cw = some i ↔ ∃ row ∈ condRows, cw &&& row.mask = row.pattern ∧ row.instr = i := by
  constructor
  · intro h
    obtain ⟨row, hrow, hmatch⟩ := exists_row cw
    rw [decodeCond_of_row cw row hrow hmatch] at h
    exact ⟨row, hrow, hmatch, Option.some.inj h⟩
  · rintro ⟨row, hrow, hmatch, rfl⟩
    exact decodeCond_of_row cw row hrow hmatch

/-! ### The encoder beside the operation map -/

/-- The encoder writes the row's match value, and the bits an operation looks at are the row's mask (R59). -/
theorem encode_row : ∀ row ∈ condRows,
    encode row.instr = ⟨.cond, row.pattern.setWidth 8⟩ ∧ bitsLookedAt row.instr = row.mask.setWidth 8 := by
  decide

/-- Every operation of format C has a row. -/
theorem exists_row_of_encode_cond (i : Instr) (h : (encode i).fmt = .cond) : ∃ row ∈ condRows, row.instr = i := by
  cases i with
  | scan kk => cases h
  | _ => decide

/-- `SCAN` is the only operation of format S (R60). -/
theorem eq_scan_of_encode_slot (i : Instr) (h : (encode i).fmt = .slot) : ∃ kk, i = .scan kk := by
  cases i with
  | scan kk => exact ⟨kk, rfl⟩
  | _ => cases h

theorem encodedWordWellFormed (i : Instr) : Laws.EncodedWordWellFormed.Statement i := by
  cases i with
  | scan kk => exact Laws.EncodedWordWellFormed.scan kk
  | idleStay => exact Laws.EncodedWordWellFormed.idleStay
  | idleArm => exact Laws.EncodedWordWellFormed.idleArm
  | pressSkip => exact Laws.EncodedWordWellFormed.pressSkip
  | pressCount => exact Laws.EncodedWordWellFormed.pressCount
  | pressAccept => exact Laws.EncodedWordWellFormed.pressAccept
  | pressReject => exact Laws.EncodedWordWellFormed.pressReject
  | process => exact Laws.EncodedWordWellFormed.process
  | releaseSkip => exact Laws.EncodedWordWellFormed.releaseSkip
  | releaseCount => exact Laws.EncodedWordWellFormed.releaseCount
  | releaseDone => exact Laws.EncodedWordWellFormed.releaseDone
  | releaseHold => exact Laws.EncodedWordWellFormed.releaseHold

/-! ### The decoder, by the encoder -/

/-- Every operation is well-formed: its only operand is a 2-bit slot (R56). -/
theorem instr_wf (i : Instr) : i.wf = true := by
  cases i with
  | scan kk => exact decide_eq_true kk.isLt
  | _ => rfl

theorem setWidth_setWidth_of_lt (n : Nat) (b : Byte) (h : b.toNat < 2 ^ n) : (b.setWidth n).setWidth 8 = b := by
  apply BitVec.eq_of_toNat_eq
  rw [BitVec.toNat_setWidth, BitVec.toNat_setWidth, Nat.mod_eq_of_lt h, Nat.mod_eq_of_lt b.isLt]

/-- A condition word can be read back from its byte. -/
theorem setWidth_eight_injective : Function.Injective (fun cw : CondWord => cw.setWidth 8) :=
  Function.LeftInverse.injective (g := fun b : Byte => b.setWidth 7) fun cw =>
    (BitVec.setWidth_setWidth_of_le cw (by decide)).trans (BitVec.setWidth_eq cw)

/-- A well-formed word is the two bits of a slot or the seven bits of a condition word (R50). -/
theorem opWord_cases (w : OpWord) (h : w.wf = true) :
    (∃ kk : Index, w = ⟨.slot, kk.setWidth 8⟩) ∨ ∃ cw : CondWord, w = ⟨.cond, cw.setWidth 8⟩ := by
  obtain ⟨fmt, bits⟩ := w
  cases fmt with
  | slot => exact .inl ⟨bits.setWidth 2, by rw [setWidth_setWidth_of_lt 2 bits (of_decide_eq_true h)]⟩
  | cond => exact .inr ⟨bits.setWidth 7, by rw [setWidth_setWidth_of_lt 7 bits (of_decide_eq_true h)]⟩

theorem decode_of_not_wf (w : OpWord) (h : w.wf = false) : decode w = .error .reservedBits := by
  simp [decode, h]

theorem wf_of_decode (w : OpWord) (i : Instr) (h : decode w = .ok i) : w.wf = true := by
  by_contra hwf
  rw [decode_of_not_wf w (Bool.eq_false_of_not_eq_true hwf)] at h
  cases h

theorem decode_cond_eq_ok_iff (cw : CondWord) (i : Instr) :
    decode ⟨.cond, cw.setWidth 8⟩ = .ok i ↔ decodeCond cw = some i := by
  rw [decode_cond]
  cases decodeCond cw <;> simp

/-- Both bits of a slot are looked at. -/
theorem slot_bits_eq_iff (kk kk' : Index) :
    kk.setWidth 8 &&& bitsLookedAt (.scan kk') = (encode (.scan kk')).bits ↔ kk = kk' := by
  revert kk kk'; decide

/-- A condition word selects an operation exactly where it is its encoding on the bits it looks at. -/
theorem decodeCond_eq_some_iff_encode (cw : CondWord) (i : Instr) :
    decodeCond cw = some i ↔
      (encode i).fmt = .cond ∧ cw.setWidth 8 &&& bitsLookedAt i = (encode i).bits := by
  have hrows : ∀ row ∈ condRows,
      (cw.setWidth 8 &&& bitsLookedAt row.instr = (encode row.instr).bits ↔ cw &&& row.mask = row.pattern) := by
    intro row hrow
    obtain ⟨hencode, hbits⟩ := encode_row row hrow
    rw [hencode, hbits, ← BitVec.setWidth_and]
    exact setWidth_eight_injective.eq_iff
  rw [decodeCond_eq_some_iff]
  constructor
  · rintro ⟨row, hrow, hmatch, rfl⟩
    exact ⟨by rw [(encode_row row hrow).1], (hrows row hrow).2 hmatch⟩
  · rintro ⟨hfmt, hword⟩
    obtain ⟨row, hrow, rfl⟩ := exists_row_of_encode_cond i hfmt
    exact ⟨row, hrow, (hrows row hrow).1 hword, rfl⟩

/-- A word decodes to an operation exactly where it is well-formed, of the operation's format, and the operation's own
word on the bits it looks at. -/
theorem decode_eq_ok_iff (w : OpWord) (i : Instr) :
    decode w = .ok i ↔
      w.wf = true ∧ (encode i).fmt = w.fmt ∧ w.bits &&& bitsLookedAt i = (encode i).bits := by
  refine ⟨fun h => ⟨wf_of_decode w i h, ?_⟩, fun ⟨hwf, hword⟩ => ?_⟩
  · obtain ⟨kk, rfl⟩ | ⟨cw, rfl⟩ := opWord_cases w (wf_of_decode w i h)
    · rw [decode_slot] at h
      cases h
      exact ⟨rfl, (slot_bits_eq_iff kk kk).2 rfl⟩
    · exact (decodeCond_eq_some_iff_encode cw i).1 ((decode_cond_eq_ok_iff cw i).1 h)
  · obtain ⟨kk, rfl⟩ | ⟨cw, rfl⟩ := opWord_cases w hwf
    · obtain ⟨hfmt, hbits⟩ := hword
      obtain ⟨kk', rfl⟩ := eq_scan_of_encode_slot i hfmt
      rw [decode_slot, (slot_bits_eq_iff kk kk').1 hbits]
    · exact (decode_cond_eq_ok_iff cw i).2 ((decodeCond_eq_some_iff_encode cw i).2 hword)

/-- The decoder is total on well-formed words (R59, R60). -/
theorem exists_decode_of_wf (w : OpWord) (h : w.wf = true) : ∃ i, decode w = .ok i := by
  obtain ⟨kk, rfl⟩ | ⟨cw, rfl⟩ := opWord_cases w h
  · exact ⟨.scan kk, decode_slot kk⟩
  · obtain ⟨row, hrow, hmatch⟩ := exists_row cw
    exact ⟨row.instr, (decode_cond_eq_ok_iff cw row.instr).2 (decodeCond_of_row cw row hrow hmatch)⟩

/-- Settles O2: every clause reads `decode_eq_ok_iff` in one direction, and the decoder is total on well-formed words. -/
theorem decodeAndEncodeAgree : Obligations.DecodeAndEncodeAgree := by
  refine ⟨fun i _ => ?_, fun w hwf => ?_, fun w w' i h hwf' hfmt' hbits' => ?_, decode_of_not_wf⟩
  · obtain ⟨hwf, hbits⟩ := encodedWordWellFormed i
    exact ⟨hwf, (decode_eq_ok_iff (encode i) i).2 ⟨hwf, rfl, hbits⟩⟩
  · obtain ⟨i, hi⟩ := exists_decode_of_wf w hwf
    obtain ⟨-, hfmt, hbits⟩ := (decode_eq_ok_iff w i).1 hi
    exact ⟨i, hi, instr_wf i, hfmt, hbits⟩
  · obtain ⟨-, hfmt, hbits⟩ := (decode_eq_ok_iff w i).1 h
    exact (decode_eq_ok_iff w' i).2 ⟨hwf', hfmt.trans hfmt'.symm, hbits'.trans hbits⟩

/-- Settles O1: each word is its operation's encoding on the bits that operation looks at. -/
theorem specWordsDecodeToTheirOperations : Obligations.SpecWordsDecodeToTheirOperations := by
  unfold Obligations.SpecWordsDecodeToTheirOperations
  simp only [decode_eq_ok_iff]
  decide

end Sys2Proof.Machine
end

section
/-!
The word of the next operation (O4, O7).
-/

namespace Sys2Proof.Machine

/-- Each argument of `packCond` stands at its bits (R58). -/
theorem packCond_fields (ss : BitVec 2) (rm vk nz eq th : Bool) :
    (packCond ss rm vk nz eq th).extractLsb' 5 2 = ss ∧
    (packCond ss rm vk nz eq th).getLsbD 4 = rm ∧ (packCond ss rm vk nz eq th).getLsbD 3 = vk ∧
    (packCond ss rm vk nz eq th).getLsbD 2 = nz ∧ (packCond ss rm vk nz eq th).getLsbD 1 = eq ∧
    (packCond ss rm vk nz eq th).getLsbD 0 = th := by
  revert ss rm vk nz eq th; decide

theorem nonZero_eq_decide (s : State) : nonZero s = decide (s.c ≠ 0b0000) := by
  rw [decide_not]
  rfl

/-- Settles O4: the fields of a packed condition word are the bits it was packed from. -/
theorem conditionWordFields : Obligations.ConditionWordFields := by
  intro s
  rw [← nonZero_eq_decide]
  exact packCond_fields (fsmCode s.st) (rowMatch s) (validKey s) (nonZero s) (sameColumn s) (overThreshold s)

theorem fetch_at_scan (s : State) (h : s.phase = .scan) : fetch s = ⟨.slot, s.k.setWidth 8⟩ := by
  simp only [fetch, h]

/-- Settles O7: the word fetched at the start of a tick holds the slot `k` and decodes to its SCAN. -/
theorem tickStartsWithScanOfSlotK : Obligations.TickStartsWithScanOfSlotK := by
  intro s hp
  rw [fetch_at_scan s hp]
  have hk : (s.k.setWidth 8).toNat = s.k.toNat := BitVec.toNat_setWidth_of_le (by decide)
  exact ⟨rfl, hk, decode_slot s.k⟩

end Sys2Proof.Machine
end

section
/-!
GHOST samples (O48): the layout table has no entry at a sample with two or more columns asserted, so it is no valid key
and differs from every recorded column.
-/

namespace Sys2Proof.Machine

/-- A GHOST sample is neither empty nor a single column (R52). -/
theorem columnClass_ghost_iff (c : Column) : columnClass c = .ghost ↔ c ≠ 0 ∧ ¬(c = 1 ∨ c = 2 ∨ c = 4 ∨ c = 8) := by
  revert c; decide

/-- The layout table has no entry at a GHOST sample (R100). -/
theorem keyDecode_of_ghost (P : Params) (r : Index) (c : Column) (h : columnClass c = .ghost) :
    keyDecode P r c = none := by
  obtain ⟨-, hmany⟩ := (columnClass_ghost_iff c).1 h
  rw [← Option.not_isSome_iff_eq_none, keyDecode_isSome]
  exact hmany

/-- While a key is pending, a GHOST sample is not the recorded column, which holds a key (R122). -/
theorem ghost_ne_recorded (s : State) (hs : s.Inv) (hkey : keyPending s = true) (h : columnClass s.c = .ghost) :
    s.c ≠ s.pcol := by
  intro heq
  have hnone : recordedEntry s = none := keyDecode_of_ghost s.params s.prow s.pcol (heq ▸ h)
  have hsome := hs.recordedValid hkey
  rw [hnone] at hsome
  cases hsome

/-- In IDLE a sample that is no valid key changes nothing (R81). -/
theorem step_idleStay (s : State) (hp : s.phase = .eval) (hst : s.st = .idle)
    (hnone : keyDecode s.params s.r s.c = none) : step s = .next { s with phase := .scan } := by
  have hvk : validKey s = false := by simp [validKey, armingEntry, operandRow, operandCol, hnone]
  rw [step_idle s hp hst, hvk]
  rfl

/-- In PRESS a sample of the recorded row that differs from the recorded column rejects the press (R86). -/
theorem step_pressReject (s : State) (hp : s.phase = .eval) (hst : s.st = .press) (hrow : s.r = s.prow)
    (hcol : s.c ≠ s.pcol) : step s = .next { s with st := .idle, phase := .scan } := by
  have hrm : rowMatch s = true := by simpa [rowMatch, operandRow] using hrow
  have heq : sameColumn s = false := by simpa [sameColumn, operandCol] using hcol
  rw [step_at_eval s .pressReject hp (by simp [selected_of_press s hst, hrm, heq])]
  rfl

/-- In RELEASE a sample of the recorded row with a column asserted clears the counter (R91). -/
theorem step_releaseHold (s : State) (hp : s.phase = .eval) (hst : s.st = .release) (hrow : s.r = s.prow)
    (hcol : s.c ≠ 0) : step s = .next { s with cnt := 0, phase := .scan } := by
  have hrm : rowMatch s = true := by simpa [rowMatch, operandRow] using hrow
  have hnz : nonZero s = true := by simpa [nonZero, operandCol] using hcol
  rw [step_at_eval s .releaseHold hp (by simp [selected_of_release s hst, hrm, hnz])]
  rfl

/-- Settles O48: a GHOST sample is no valid key, not the recorded column, and not empty. -/
theorem ghostSamplesAreNeverAccepted : Obligations.GhostSamplesAreNeverAccepted := by
  intro s hs hp hghost
  refine ⟨fun hst => ⟨exec_idleStay s, ?_⟩, fun hst hrow => ?_, fun hst hrow => ?_⟩
  · exact step_idleStay s hp hst (keyDecode_of_ghost s.params s.r s.c hghost)
  · exact step_pressReject s hp hst hrow (ghost_ne_recorded s hs (by simp [keyPending, hst]) hghost)
  · exact step_releaseHold s hp hst hrow ((columnClass_ghost_iff s.c).1 hghost).1

end Sys2Proof.Machine
end

section
/-!
The slot that SCAN serves (O9, O10, O11): the states SCAN passes through, and the one it leaves.
-/

namespace Sys2Proof.Machine

@[simp] theorem bufRead_setSel (i : Index) (x : Select) (s : State) : bufRead i (s.setSel x) = bufRead i s := rfl

/-- A column read does not see the latches. -/
@[simp] theorem portReadCol_setSeg_setSel (x : Select) (y : Byte) (s : State) :
    portReadCol ((s.setSel x).setSeg y) = portReadCol s := rfl

/-- A second write of the select latch replaces the first (R43). -/
@[simp] theorem setSel_setSel (x y : Select) (s : State) : (s.setSel x).setSel y = s.setSel y := rfl

/-- Each stage of SCAN as a record update of the state SCAN started from (R70). -/
theorem scanStages_eq (kk : Index) (s : State) :
    scanStages kk s =
      [{ s with sel := allDeselected },
       { s with sel := onecold4 kk },
       { s with sel := onecold4 kk, seg := bufRead kk s },
       { s with sel := onecold4 kk, seg := bufRead kk s },
       { s with sel := onecold4 kk, seg := bufRead kk s, c := portReadCol s, r := kk,
                samples := s.samples.tail, drawn := s.drawn + 1 },
       { s with sel := onecold4 kk, seg := bufRead kk s, c := portReadCol s, r := kk, k := kk + 1,
                samples := s.samples.tail, drawn := s.drawn + 1 }] := by
  simp only [scanStages, scanAdvance, scanSample, scanRefresh, scanSelect, scanDeselect, settleWait_eq,
    portWriteSel_eq, portWriteSeg_eq, setSel_setSel, bufRead_setSel, portReadCol_setSeg_setSel]
  rfl

/-- At every stage of SCAN the select lines are all high, or low on the slot's line alone (R71). -/
theorem sel_of_mem_scanStages (kk : Index) (s u : State) (h : u ∈ scanStages kk s) :
    u.sel = allDeselected ∨ u.sel = onecold4 kk := by
  rw [scanStages_eq] at h
  simp only [List.mem_cons, List.not_mem_nil, or_false] at h
  obtain rfl | hselected := h
  · exact .inl rfl
  · obtain rfl | rfl | rfl | rfl | rfl := hselected <;> exact .inr rfl

theorem allDeselected_getLsbD (j : Fin 4) : allDeselected.getLsbD j.val = true := by
  revert j; decide

/-- The low line of a one-cold pattern is its index. -/
theorem eq_of_onecold4_getLsbD (kk : Index) (j : Fin 4) (h : (onecold4 kk).getLsbD j.val = false) :
    j.val = kk.toNat := by
  rw [onecold4_getLsbD] at h
  exact not_not.1 (of_decide_eq_false h)

/-- The slot `n` places on, as a number (R76). -/
theorem toNat_add_ofNat (k : Index) (n : Nat) : (k + BitVec.ofNat 2 n).toNat = (k.toNat + n) % 4 := by
  rw [BitVec.toNat_add, BitVec.toNat_ofNat, Nat.add_mod_mod]

/-- Settles O9: `exec_scan` gives the whole state that SCAN leaves. -/
theorem scanServesItsSlot : Obligations.ScanServesItsSlot := by
  intro kk s
  refine ⟨_, exec_scan kk s, rfl, onecold4_getLsbD kk, toNat_add_ofNat kk 1, fun x xs hlined => ?_, fun hnone => ?_,
    fun _ => rfl⟩
  · exact portReadCol_cons s x xs hlined
  · exact portReadCol_nil s hnone

/-- Settles O11: with all lines high no line is low, and a one-cold pattern has one low line. -/
theorem atMostOneSelectLineActiveDuringScan : Obligations.AtMostOneSelectLineActiveDuringScan := by
  intro kk s u hu i j hi hj
  obtain hsel | hsel := sel_of_mem_scanStages kk s u hu
  · rw [hsel, allDeselected_getLsbD] at hi
    cases hi
  · rw [hsel] at hi hj
    exact Fin.ext ((eq_of_onecold4_getLsbD kk i hi).trans (eq_of_onecold4_getLsbD kk j hj).symm)

/-- Settles O10: the events are read off the first three stages, and the last stage is the state of `exec_scan`. -/
theorem scanPortEventsInOrder : Obligations.ScanPortEventsInOrder := by
  intro kk s
  refine ⟨?_, _, ?_, exec_scan kk s⟩
  · rw [scanPortEvents, scanStages_eq]
    rfl
  · rw [scanStages_eq]
    rfl

end Sys2Proof.Machine
end

section
/-!
The scan goes on in every tick (O12, O38): whatever the FSM evaluation does, it leaves the scan index and the latches as
SCAN left them.
-/

namespace Sys2Proof.Machine

/-- No row of the operation map is SCAN's (R59). -/
theorem condRows_ne_scan : ∀ row ∈ condRows, ∀ kk, row.instr ≠ .scan kk := by
  decide

theorem selected_ne_scan (cw : CondWord) (i : Instr) (h : decodeCond cw = some i) : ∀ kk, i ≠ .scan kk := by
  obtain ⟨row, hrow, -, rfl⟩ := (decodeCond_eq_some_iff cw i).1 h
  exact condRows_ne_scan row hrow

/-- The FSM evaluation ends the tick and leaves the scan index and the latches as they were (R18, R116). -/
theorem step_eval_keeps_scan_items (s t : State) (hp : s.phase = .eval) (h : step s = .next t) :
    t.phase = .scan ∧ t.k = s.k ∧ t.sel = s.sel ∧ t.seg = s.seg := by
  obtain ⟨hscan, -⟩ | ⟨-, i, u, hi, hu, rfl⟩ := step_cases s t h
  · rw [hp] at hscan
    cases hscan
  · obtain ⟨hk, hsel, hseg, -⟩ := exec_fsm_keeps_scan_items i s u (selected_ne_scan _ i hi) hu
    exact ⟨rfl, hk, hsel, hseg⟩

/-- A tick that completes has served the slot `k`, and the next one serves the slot after it (R71, R73, R76). -/
theorem tick_serves_slot (s t : State) (hp : s.phase = .scan) (h : tick s = .next t) :
    t.phase = .scan ∧ t.k = s.k + 1 ∧ t.sel = onecold4 s.k ∧ t.seg = bufRead s.k s := by
  rw [tick_eq_step_afterScan s hp] at h
  exact step_eval_keeps_scan_items (afterScan s) t rfl h

/-- Settles O12, by what a tick leaves of its SCAN. -/
theorem scanIndexAdvancesInEveryTick : Obligations.ScanIndexAdvancesInEveryTick := by
  intro s t hp h
  obtain ⟨hphase, hk, -⟩ := tick_serves_slot s t hp h
  rw [hk]
  exact ⟨hphase, toNat_add_ofNat s.k 1⟩

/-- After `n` ticks the scan index is `n` places on, at the start of a tick (R124). -/
theorem ticks_advance (n : Nat) (s t : State) (hp : s.phase = .scan) (h : ticks n s = .next t) :
    t.phase = .scan ∧ t.k = s.k + BitVec.ofNat 2 n := by
  induction n generalizing t with
  | zero =>
    cases h
    exact ⟨hp, (BitVec.add_zero s.k).symm⟩
  | succ n ih =>
    rw [ticks_add, afterNext_eq_next] at h
    obtain ⟨u, hrun, hlast⟩ := h
    rw [ticks_succ, afterNext_eq_next] at hlast
    obtain ⟨v, htick, hdone⟩ := hlast
    cases hdone
    obtain ⟨hphase, hk⟩ := ih u hrun
    obtain ⟨hphase', hk', -⟩ := tick_serves_slot u t hphase htick
    exact ⟨hphase', by rw [hk', hk, add_ofNat_succ]⟩

/-- Settles O38: the slot served by the next tick is the scan index that the `n` ticks have reached. -/
theorem everyTickShowsTheNextDigit : Obligations.EveryTickShowsTheNextDigit := by
  intro n s t u hp hrun htick
  obtain ⟨hphase, hk⟩ := ticks_advance n s t hp hrun
  obtain ⟨-, -, hsel, hseg⟩ := tick_serves_slot t u hphase htick
  exact ⟨t.k, by rw [hk, toNat_add_ofNat], hsel, hseg⟩

end Sys2Proof.Machine
end

section
/-!
The case tree of R80 (O5): what the operation map selects, in terms of the registers and the operands of the tick.
-/

namespace Sys2Proof.Machine

/-! ### The bits of the condition word as conditions on the registers (R58) -/

theorem rowMatch_iff (s : State) : rowMatch s = true ↔ s.r = s.prow := beq_iff_eq

theorem sameColumn_iff (s : State) : sameColumn s = true ↔ s.c = s.pcol := beq_iff_eq

theorem nonZero_iff (s : State) : nonZero s = true ↔ s.c ≠ 0b0000 := bne_iff_ne

theorem overThreshold_iff (s : State) : overThreshold s = true ↔ s.cnt + 1 > s.params.N := decide_eq_true_iff

/-! ### The case tree of each FSM state -/

/-- In IDLE the operation is chosen by the layout entry of the operands. -/
theorem caseTree_idle (s : State) (h : s.st = .idle) :
    decodeCond (condWord s) = some (if (keyDecode s.params s.r s.c).isSome then .idleArm else .idleStay) :=
  selected_of_idle s h

/-- In PRESS it is chosen by the row, then the recorded column, then the threshold. -/
theorem caseTree_press (s : State) (h : s.st = .press) :
    decodeCond (condWord s) =
      some (if s.r ≠ s.prow then .pressSkip else if s.c ≠ s.pcol then .pressReject
        else if s.cnt + 1 > s.params.N then .pressAccept else .pressCount) := by
  simp only [selected_of_press s h, Bool.not_eq_true', Bool.eq_false_iff, ne_eq, rowMatch_iff, sameColumn_iff,
    overThreshold_iff]

/-- In RELEASE it is chosen by the row, then the empty sample, then the threshold. -/
theorem caseTree_release (s : State) (h : s.st = .release) :
    decodeCond (condWord s) =
      some (if s.r ≠ s.prow then .releaseSkip else if s.c ≠ 0b0000 then .releaseHold
        else if s.cnt + 1 > s.params.N then .releaseDone else .releaseCount) := by
  simp only [selected_of_release s h, Bool.not_eq_true', Bool.eq_false_iff, ne_eq, rowMatch_iff, nonZero_iff,
    overThreshold_iff]

theorem fetch_at_eval (s : State) (h : s.phase = .eval) : fetch s = ⟨.cond, (condWord s).setWidth 8⟩ := by
  simp only [fetch, h]

/-- At the evaluation the fetched word decodes to the operation that the operation map selects. -/
theorem decode_fetch_of_selected (s : State) (i : Instr) (hp : s.phase = .eval)
    (hi : decodeCond (condWord s) = some i) : decode (fetch s) = .ok i := by
  rw [fetch_at_eval s hp]
  exact (decode_cond_eq_ok_iff (condWord s) i).2 hi

/-- Settles O5: the case tree of each FSM state. -/
theorem selectionFollowsTheCaseTree : Obligations.SelectionFollowsTheCaseTree := by
  intro s hp
  apply decode_fetch_of_selected s _ hp
  cases hst : s.st with
  | idle => exact caseTree_idle s hst
  | press => exact caseTree_press s hst
  | process => exact selected_of_process s hst
  | release => exact caseTree_release s hst

end Sys2Proof.Machine
end

section
/-!
The FSM operations (O13 to O19, O21 to O23): each is selected under its condition, completes, and is the whole second
half of the tick.
-/

namespace Sys2Proof.Machine

/-- A condition word that selects an operation shows the operation's match value under its mask (R59). -/
theorem condWord_of_selected (cw : CondWord) (i : Instr) (h : decodeCond cw = some i) :
    cw &&& (bitsLookedAt i).setWidth 7 = (encode i).bits.setWidth 7 := by
  have hword : cw.setWidth 8 &&& bitsLookedAt i = (encode i).bits := ((decodeCond_eq_some_iff_encode cw i).1 h).2
  rw [← hword, BitVec.setWidth_and, BitVec.setWidth_setWidth_of_le cw (by decide), BitVec.setWidth_eq]

/-- What an evaluation shows and does when the operation it selects completes. -/
theorem evaluation_of_selected (s t : State) (i : Instr) (hp : s.phase = .eval)
    (hi : decodeCond (condWord s) = some i) (ht : exec i s = .next t) :
    condWord s &&& (bitsLookedAt i).setWidth 7 = (encode i).bits.setWidth 7 ∧ decode (fetch s) = .ok i ∧
      exec i s = .next t ∧ step s = .next { t with phase := .scan } := by
  refine ⟨condWord_of_selected (condWord s) i hi, decode_fetch_of_selected s i hp hi, ht, ?_⟩
  rw [step_at_eval s i hp hi, ht, afterNext_next]

/-- Settles O13: without a layout entry the case tree names IDLE_STAY. -/
theorem idleStayChangesNothing : Obligations.IdleStayChangesNothing := by
  intro s hp hst hkey
  exact evaluation_of_selected s s .idleStay hp (by simp [caseTree_idle s hst, hkey]) (exec_idleStay s)

/-- Settles O14: with a layout entry it names IDLE_ARM. -/
theorem idleArmRecordsTheKey : Obligations.IdleArmRecordsTheKey := by
  intro s x hp hst hkey
  exact evaluation_of_selected s _ .idleArm hp (by simp [caseTree_idle s hst, hkey]) (exec_idleArm s)

/-- Settles O15: the row is the first condition of the case tree in both states. -/
theorem otherRowsAreSkipped : Obligations.OtherRowsAreSkipped := by
  intro s hp hrow
  refine ⟨fun hst => ?_, fun hst => ?_⟩
  · exact evaluation_of_selected s s .pressSkip hp (by simp [caseTree_press s hst, hrow]) (exec_pressSkip s)
  · exact evaluation_of_selected s s .releaseSkip hp (by simp [caseTree_release s hst, hrow]) (exec_releaseSkip s)

/-- Settles O16: the matching sample below the threshold is the last branch of PRESS. -/
theorem pressCountCountsTheSample : Obligations.PressCountCountsTheSample := by
  intro s hp hst hrow hcol hcnt
  have hbelow : ¬ s.cnt + 1 > s.params.N := hcnt.not_gt
  exact evaluation_of_selected s _ .pressCount hp (by simp [caseTree_press s hst, hrow, hcol, hbelow])
    (exec_pressCount s)

/-- Settles O18: a differing column is rejected before the threshold is looked at. -/
theorem pressRejectReturnsToIdle : Obligations.PressRejectReturnsToIdle := by
  intro s hp hst hrow hcol
  exact evaluation_of_selected s _ .pressReject hp (by simp [caseTree_press s hst, hrow, hcol]) (exec_pressReject s)

/-- Settles O21: the empty sample below the threshold is the last branch of RELEASE. -/
theorem releaseCountCountsTheEmptySample : Obligations.ReleaseCountCountsTheEmptySample := by
  intro s hp hst hrow hcol hcnt
  have hbelow : ¬ s.cnt + 1 > s.params.N := hcnt.not_gt
  exact evaluation_of_selected s _ .releaseCount hp (by simp [caseTree_release s hst, hrow, hcol, hbelow])
    (exec_releaseCount s)

/-- Settles O22: the empty sample is looked at before the threshold. -/
theorem releaseDoneReturnsToIdle : Obligations.ReleaseDoneReturnsToIdle := by
  intro s hp hst hrow hcol hcnt
  exact evaluation_of_selected s _ .releaseDone hp (by simp [caseTree_release s hst, hrow, hcol, hcnt])
    (exec_releaseDone s)

/-- Settles O23: an asserted column clears the counter before the threshold is looked at. -/
theorem releaseHoldClearsTheCounter : Obligations.ReleaseHoldClearsTheCounter := by
  intro s hp hst hrow hcol
  have hselect : decodeCond (condWord s) = some .releaseHold := by
    rw [caseTree_release s hst, if_neg (not_not.2 hrow), if_pos hcol]
  exact evaluation_of_selected s _ .releaseHold hp hselect (exec_releaseHold s)

/-! ### PROCESS, by itself and chained to PRESS_ACCEPT -/

/-- The state that PROCESS leaves where the recorded pair holds the key `x` (R87). -/
def processed (x : Fin 16) (s : State) : State :=
  { bufPush (s.params.segtab.get x) s with cnt := 0, st := .release }

theorem exec_process_of_key (s : State) (x : Fin 16) (hx : recordedEntry s = some x) :
    exec .process s = .next (processed x s) :=
  processRecorded_of_key s x hx

/-- PRESS_ACCEPT leaves what PROCESS leaves: the counter it counts up is cleared (R85). -/
theorem exec_pressAccept_of_key (s : State) (x : Fin 16) (hx : recordedEntry s = some x) :
    exec .pressAccept s = .next (processed x s) :=
  processRecorded_of_key { s with cnt := s.cnt + 1, st := .process } x hx

/-- An evaluation that selects an operation which runs PROCESS pushes the recorded key's pattern. -/
theorem evaluation_writes_pattern (s : State) (x : Fin 16) (i : Instr) (hp : s.phase = .eval)
    (hi : decodeCond (condWord s) = some i) (hexec : exec i s = .next (processed x s)) :
    ∃ t : State,
      condWord s &&& (bitsLookedAt i).setWidth 7 = (encode i).bits.setWidth 7 ∧ decode (fetch s) = .ok i ∧
      exec i s = .next t ∧
      t = { s with st := .release, cnt := 0, widx := t.widx, buf := t.buf } ∧
      t.widx.toNat = (s.widx.toNat + 1) % 4 ∧
      bufRead s.widx t = s.params.segtab.get x ∧
      (∀ i, i ≠ s.widx → bufRead i t = bufRead i s) ∧
      step s = .next { t with phase := .scan } := by
  obtain ⟨hcw, hdecode, -, hstep⟩ := evaluation_of_selected s _ i hp hi hexec
  exact ⟨processed x s, hcw, hdecode, hexec, rfl, toNat_add_ofNat s.widx 1,
    bufRead_bufPush_same (s.params.segtab.get x) s, bufRead_bufPush_of_ne (s.params.segtab.get x) s, hstep⟩

/-- Settles O17: the accepting evaluation runs PROCESS on the recorded pair (R85). -/
theorem pressAcceptWritesThePattern : Obligations.PressAcceptWritesThePattern := by
  intro s x hp hst hrow hcol hcnt hx
  exact evaluation_writes_pattern s x .pressAccept hp (by simp [caseTree_press s hst, hrow, hcol, hcnt])
    (exec_pressAccept_of_key s x hx)

/-- Settles O19: PROCESS is selected whatever the sample. -/
theorem processWritesThePattern : Obligations.ProcessWritesThePattern := by
  intro s x hp hst hx
  exact evaluation_writes_pattern s x .process hp (selected_of_process s hst) (exec_process_of_key s x hx)

end Sys2Proof.Machine
end

section
/-!
SUPPORT. What the statements about single evaluations and about runs share: the pending states, the sample of a tick, the
slots and the joining of runs.
-/

namespace Sys2Proof.Machine

theorem keyPending_iff (s : State) : keyPending s = true ↔ s.st = .press ∨ s.st = .release := by
  simp [keyPending]

/-- A column read gives the first lined-up sample. -/
theorem portReadCol_of_head? (s : State) (x : Column) (h : s.samples[0]? = some x) : portReadCol s = x := by
  obtain ⟨xs, hxs⟩ := List.head?_eq_some_iff.1 (List.head?_eq_getElem?.trans h)
  exact portReadCol_cons s x xs hxs

/-- The slot `n` places on from the next slot is `n + 1` places on. -/
theorem succ_add_ofNat (k : Index) (n : Nat) : k + 1 + BitVec.ofNat 2 n = k + BitVec.ofNat 2 (n + 1) := by
  rw [add_ofNat_succ, add_right_comm]

theorem ticks_then_ticks {m n : Nat} {s t u : State} (hrun : ticks m s = .next t) (hrest : ticks n t = .next u) :
    ticks (m + n) s = .next u := by
  rw [ticks_add, hrun, afterNext_next, hrest]

theorem ticks_then_tick {n : Nat} {s t u : State} (hrun : ticks n s = .next t) (hlast : tick t = .next u) :
    ticks (n + 1) s = .next u :=
  ticks_then_ticks hrun (by rw [ticks_succ, hlast, afterNext_next, ticks_zero])

end Sys2Proof.Machine
end

section
/-!
Progress under the invariant (O30).
-/

namespace Sys2Proof.Machine

/-- The FSM evaluation in PRESS completes where the recorded pair holds a key (R83 to R86). -/
theorem step_press_completes (s : State) (hp : s.phase = .eval) (hst : s.st = .press)
    (hvalid : (recordedEntry s).isSome = true) : ∃ t, step s = .next t := by
  obtain ⟨x, hx⟩ := Option.isSome_iff_exists.1 hvalid
  rw [step_at_eval s _ hp (caseTree_press s hst)]
  split_ifs
  · exact ⟨_, rfl⟩
  · exact ⟨_, rfl⟩
  · exact ⟨_, by rw [exec_pressAccept_of_key s x hx, afterNext_next]⟩
  · exact ⟨_, rfl⟩

/-- Settles O30: SCAN, IDLE and RELEASE always complete, PRESS does because the recorded pair holds a key, and PROCESS
is no state between two steps. -/
theorem noStepStopsUnderTheInvariant : Obligations.NoStepStopsUnderTheInvariant := by
  intro s hs
  cases hp : s.phase with
  | scan => exact ⟨_, step_scan s hp⟩
  | eval =>
    cases hst : s.st with
    | idle => exact ⟨_, step_idle s hp hst⟩
    | press => exact step_press_completes s hp hst (hs.recordedValid ((keyPending_iff s).2 (.inl hst)))
    | process => exact absurd hst hs.notProcess
    | release =>
      obtain ⟨_, _, hstep⟩ := step_release s hp hst
      exact ⟨_, hstep⟩

end Sys2Proof.Machine
end

section
/-!
Whole scan rounds while a key is pending (O39, O41, O42): one tick of the recorded row, then three ticks of other rows,
in which only SCAN acts (R93).
-/

namespace Sys2Proof.Machine

/-- Settles O39: another row's tick is its SCAN, which reads the sample lined up first. -/
theorem otherRowsHaveNoInfluence : Obligations.OtherRowsHaveNoInfluence := by
  intro s x xs hp hkey hrow
  rw [tick_otherRow { s with samples := x :: xs } hp hkey hrow, ← hp]
  rfl

/-- A tick of the recorded row that leaves a key pending, and the three ticks of the other rows after it. -/
theorem ticks_round (s t : State) (htick : tick s = .next t) (hp : t.phase = .scan) (hkey : keyPending t = true)
    (hk : t.k = t.prow + 1) :
    ∃ sel seg r c, ticks 4 s =
      .next { t with sel := sel, seg := seg, k := t.prow, r := r, c := c,
                     samples := t.samples.drop 3, drawn := t.drawn + 3 } := by
  have hrows : ∀ j, j < 3 → t.k + BitVec.ofNat 2 j ≠ t.prow := fun j hj => by
    rw [hk, succ_add_ofNat]
    exact add_ofNat_ne_self t.prow (j + 1) (by omega) (by omega)
  have hback : t.k + BitVec.ofNat 2 3 = t.prow := by
    rw [hk, succ_add_ofNat]
    exact add_zero t.prow
  obtain ⟨sel, seg, r, c, hrun⟩ := ticks_otherRows 3 t hp hkey hrows
  refine ⟨sel, seg, r, c, ?_⟩
  rw [ticks_succ, htick, afterNext_next, hrun, hback, hp]

/-- The sample of the recorded row that the FSM counts: the recorded column in PRESS, none in RELEASE (R84, R89). -/
def countedSample (s : State) : Column := if s.st = .press then s.pcol else 0b0000

/-- While a key is pending, the FSM evaluation counts the counted sample up to `N` (R84, R89). -/
theorem step_counts (s : State) (hp : s.phase = .eval) (hkey : keyPending s = true) (hrow : s.r = s.prow)
    (hcol : s.c = countedSample s) (hcnt : s.cnt + 1 ≤ s.params.N) :
    step s = .next { s with cnt := s.cnt + 1, phase := .scan } := by
  obtain hst | hst := (keyPending_iff s).1 hkey
  · obtain ⟨-, -, -, hstep⟩ :=
      pressCountCountsTheSample s hp hst hrow (by simpa [countedSample, hst] using hcol) hcnt
    exact hstep
  · obtain ⟨-, -, -, hstep⟩ :=
      releaseCountCountsTheEmptySample s hp hst hrow (by simpa [countedSample, hst] using hcol) hcnt
    exact hstep

/-- A tick of the recorded row whose sample is the counted one. -/
theorem tick_counts (s : State) (hp : s.phase = .scan) (hkey : keyPending s = true) (hk : s.k = s.prow)
    (hsample : s.samples[0]? = some (countedSample s)) (hcnt : s.cnt + 1 ≤ s.params.N) :
    tick s = .next { afterScan s with cnt := s.cnt + 1, phase := .scan } := by
  rw [tick_eq_step_afterScan s hp]
  exact step_counts (afterScan s) rfl hkey hk (portReadCol_of_head? s _ hsample) hcnt

/-- The state `n` scan rounds after `s`, in which the FSM has written at most the counter. -/
def afterRounds (n cnt : Nat) (sel : Select) (seg : Byte) (r : Index) (c : Column) (s : State) : State :=
  { s with cnt := cnt, sel := sel, seg := seg, r := r, c := c,
           samples := s.samples.drop (4 * n), drawn := s.drawn + 4 * n }

/-- Rounds after rounds: what the earlier ones left in the counter, the latches and the operands is gone. -/
theorem afterRounds_afterRounds (m n cnt cnt' : Nat) (sel sel' : Select) (seg seg' : Byte) (r r' : Index)
    (c c' : Column) (s : State) :
    afterRounds n cnt' sel' seg' r' c' (afterRounds m cnt sel seg r c s) =
      afterRounds (m + n) cnt' sel' seg' r' c' s := by
  simp [afterRounds, Nat.mul_add, Nat.add_assoc]

/-- The sample read in the tick after `n` rounds. -/
theorem afterRounds_head? (n cnt : Nat) (sel : Select) (seg : Byte) (r : Index) (c : Column) (s : State) :
    (afterRounds n cnt sel seg r c s).samples[0]? = s.samples[4 * n]? :=
  List.getElem?_drop

/-- A round that starts with the counted sample. -/
theorem ticks_count_round (s : State) (hp : s.phase = .scan) (hkey : keyPending s = true) (hk : s.k = s.prow)
    (hsample : s.samples[0]? = some (countedSample s)) (hcnt : s.cnt + 1 ≤ s.params.N) :
    ∃ sel seg r c, ticks 4 s = .next (afterRounds 1 (s.cnt + 1) sel seg r c s) := by
  obtain ⟨sel, seg, r, c, hround⟩ :=
    ticks_round s _ (tick_counts s hp hkey hk hsample hcnt) rfl hkey (congrArg (· + 1) hk)
  refine ⟨sel, seg, r, c, ?_⟩
  simp [hround, afterRounds, afterScan, hp, hk, Nat.add_assoc]

/-- `n` rounds with the counted sample in the recorded row's ticks take the counter up by `n`, whatever the other rows
show, as long as it stays within `N`. -/
theorem ticks_count (n : Nat) (s : State) (hp : s.phase = .scan) (hkey : keyPending s = true) (hk : s.k = s.prow)
    (hcnt : s.cnt + n ≤ s.params.N) (hsamples : ∀ j, j < n → s.samples[4 * j]? = some (countedSample s)) :
    ∃ sel seg r c, ticks (4 * n) s = .next (afterRounds n (s.cnt + n) sel seg r c s) := by
  induction n with
  | zero => exact ⟨s.sel, s.seg, s.r, s.c, rfl⟩
  | succ n ih =>
    obtain ⟨sel, seg, r, c, hrun⟩ := ih (by omega) fun j hj => hsamples j (by omega)
    obtain ⟨sel', seg', r', c', hround⟩ := ticks_count_round (afterRounds n (s.cnt + n) sel seg r c s) hp hkey hk
      ((afterRounds_head? ..).trans (hsamples n n.lt_succ_self)) hcnt
    rw [Nat.mul_succ, ticks_add, hrun, afterNext_next, hround, afterRounds_afterRounds]
    exact ⟨sel', seg', r', c', rfl⟩

/-! ### Release -/

/-- In RELEASE, the tick of the recorded row whose empty sample takes the counter above `N` returns to IDLE (R90). -/
theorem tick_releaseDone (s : State) (hp : s.phase = .scan) (hst : s.st = .release) (hk : s.k = s.prow)
    (hsample : s.samples[0]? = some 0b0000) (hcnt : s.cnt + 1 > s.params.N) :
    tick s = .next { afterScan s with cnt := s.cnt + 1, st := .idle, phase := .scan } := by
  obtain ⟨-, -, -, hstep⟩ :=
    releaseDoneReturnsToIdle (afterScan s) rfl hst hk (portReadCol_of_head? s _ hsample) hcnt
  rw [tick_eq_step_afterScan s hp, hstep]
  rfl

/-- In RELEASE at a tick of the recorded row, the empty samples that are missing to `N`, and then one more, return to
IDLE (R90). -/
theorem ticks_releaseDone (s : State) (n : Nat) (hp : s.phase = .scan) (hst : s.st = .release) (hk : s.k = s.prow)
    (hcnt : s.cnt + n = s.params.N) (hsamples : ∀ j, j ≤ n → s.samples[4 * j]? = some 0b0000) :
    ∃ t u : State, ticks (4 * n) s = .next t ∧ t.st = .release ∧ t.cnt = s.params.N ∧
      tick t = .next u ∧ u.st = .idle ∧ u.cnt = s.params.N + 1 ∧ u.widx = s.widx ∧
      ∀ i, bufRead i u = bufRead i s := by
  have hcounted : countedSample s = 0b0000 := by simp [countedSample, hst]
  obtain ⟨sel, seg, r, c, hrun⟩ := ticks_count n s hp ((keyPending_iff s).2 (.inr hst)) hk hcnt.le fun j hj => by
    rw [hcounted, hsamples j hj.le]
  have hdone := tick_releaseDone (afterRounds n (s.cnt + n) sel seg r c s) hp hst hk
    ((afterRounds_head? ..).trans (hsamples n le_rfl)) (by simp [afterRounds, hcnt])
  exact ⟨_, _, hrun, hst, hcnt, hdone, rfl, congrArg (· + 1) hcnt, rfl, fun _ => rfl⟩

/-- Settles O42: from the counter at 0, all `N` samples are missing. -/
theorem releaseIsConfirmedOnTime : Obligations.ReleaseIsConfirmedOnTime := by
  intro s hp hst hk hcnt hsamples
  exact ticks_releaseDone s s.params.N hp hst hk (by rw [hcnt, Nat.zero_add]) hsamples

/-! ### Press -/

/-- `s` with the key at the slot `k` and the column `v` recorded, in PRESS (R82). -/
def recordKey (v : Column) (s : State) : State := { s with prow := s.k, pcol := v, st := .press }

/-- In IDLE a tick whose sample is a valid key of its row arms it. -/
theorem tick_arm (s : State) (v : Column) (x : Fin 16) (hp : s.phase = .scan) (hst : s.st = .idle)
    (hkey : keyDecode s.params s.k v = some x) (hsample : s.samples[0]? = some v) :
    tick s = .next { afterScan s with prow := s.k, pcol := v, cnt := 0, st := .press, phase := .scan } := by
  obtain rfl := portReadCol_of_head? s v hsample
  obtain ⟨-, -, -, hstep⟩ := idleArmRecordsTheKey (afterScan s) x rfl hst hkey
  rw [tick_eq_step_afterScan s hp, hstep]
  rfl

/-- The round that starts with the arming tick leaves the key recorded and nothing counted. -/
theorem ticks_arm_round (s : State) (v : Column) (x : Fin 16) (hp : s.phase = .scan) (hst : s.st = .idle)
    (hkey : keyDecode s.params s.k v = some x) (hsample : s.samples[0]? = some v) :
    ∃ sel seg r c, ticks 4 s = .next (afterRounds 1 0 sel seg r c (recordKey v s)) := by
  obtain ⟨sel, seg, r, c, hround⟩ := ticks_round s _ (tick_arm s v x hp hst hkey hsample) rfl rfl rfl
  refine ⟨sel, seg, r, c, ?_⟩
  simp [hround, afterRounds, recordKey, afterScan, hp, Nat.add_assoc]

/-- From IDLE, a key seen in the arming tick and in the next `n` samples of its row, `n` at most `N`: after `n + 1`
rounds the counter is at `n` (R82, R84). -/
theorem ticks_arm_count (n : Nat) (s : State) (v : Column) (x : Fin 16) (hp : s.phase = .scan) (hst : s.st = .idle)
    (hkey : keyDecode s.params s.k v = some x) (hn : n ≤ s.params.N)
    (hsamples : ∀ j, j ≤ n → s.samples[4 * j]? = some v) :
    ∃ sel seg r c, ticks (4 * (n + 1)) s = .next (afterRounds (n + 1) n sel seg r c (recordKey v s)) := by
  obtain ⟨sel, seg, r, c, hround⟩ := ticks_arm_round s v x hp hst hkey (hsamples 0 n.zero_le)
  have hcounted : ∀ j, j < n → (afterRounds 1 0 sel seg r c (recordKey v s)).samples[4 * j]? = some v := by
    intro j hj
    rw [← hsamples (j + 1) hj]
    exact List.getElem?_drop.trans (by rw [Nat.mul_succ, Nat.add_comm]; rfl)
  obtain ⟨sel', seg', r', c', hrun⟩ :=
    ticks_count n (afterRounds 1 0 sel seg r c (recordKey v s)) hp rfl rfl (n.zero_add.trans_le hn) hcounted
  refine ⟨sel', seg', r', c', ?_⟩
  rw [Nat.mul_succ, Nat.add_comm, ticks_add, hround, afterNext_next, hrun, afterRounds_afterRounds, Nat.add_comm 1]
  simp [afterRounds]

/-- In PRESS, the tick of the recorded row whose sample differs from the recorded column returns to IDLE (R86). -/
theorem tick_pressReject (s : State) (y : Column) (hp : s.phase = .scan) (hst : s.st = .press) (hk : s.k = s.prow)
    (hsample : s.samples[0]? = some y) (hy : y ≠ s.pcol) :
    tick s = .next { afterScan s with st := .idle, phase := .scan } := by
  obtain rfl := portReadCol_of_head? s y hsample
  rw [tick_eq_step_afterScan s hp]
  exact step_pressReject (afterScan s) rfl hst hk hy

/-- Settles O41: after the arming round and `N - 1` counting rounds one tick more counts to `N`, and after `N` counting
rounds the next tick of the row rejects. -/
theorem pressOfNCountedSamplesIsRejected : Obligations.PressOfNCountedSamplesIsRejected := by
  intro s v y x hp hst hkey hsamples hlast hy
  have hN : s.params.N = s.params.nMinus1 + 1 := rfl
  obtain ⟨sel, seg, r, c, hrun⟩ := ticks_arm_count s.params.nMinus1 s v x hp hst hkey (by omega)
    fun j hj => hsamples j (by omega)
  obtain ⟨sel', seg', r', c', hrun'⟩ := ticks_arm_count s.params.N s v x hp hst hkey le_rfl hsamples
  have hcount := tick_counts (afterRounds s.params.N s.params.nMinus1 sel seg r c (recordKey v s)) hp rfl rfl
    ((afterRounds_head? ..).trans (hsamples s.params.N le_rfl)) hN.ge
  have hreject := tick_pressReject (afterRounds (s.params.N + 1) s.params.N sel' seg' r' c' (recordKey v s)) y hp
    rfl rfl ((afterRounds_head? ..).trans hlast) hy
  have ht := ticks_then_tick hrun hcount
  have hu := ticks_then_tick hrun' hreject
  exact ⟨_, _, ht, rfl, hN.symm, hu, rfl, rfl, fun _ => rfl⟩

end Sys2Proof.Machine
end

section
/-!
Ways through IDLE (O45, O47): into PRESS by the first valid key, and back to IDLE from everywhere.
-/

namespace Sys2Proof.Machine

/-- In IDLE a tick whose sample is no valid key of its row is its SCAN (R81). -/
theorem tick_idleStay (s : State) (y : Column) (hp : s.phase = .scan) (hst : s.st = .idle)
    (hnone : keyDecode s.params s.k y = none) (hsample : s.samples[0]? = some y) :
    tick s = .next { afterScan s with phase := .scan } := by
  obtain rfl := portReadCol_of_head? s y hsample
  rw [tick_eq_step_afterScan s hp]
  exact step_idleStay (afterScan s) rfl hst hnone

/-- Settles O45, by induction on the number of ticks before the valid key. -/
theorem firstValidKeyInScanOrderIsArmed : Obligations.FirstValidKeyInScanOrderIsArmed := by
  intro s m v x hp hst hnone hsample hkey
  induction m generalizing s with
  | zero =>
    rw [BitVec.add_zero] at hkey ⊢
    have harm := ticks_then_tick (ticks_zero s) (tick_arm s v x hp hst hkey hsample)
    exact ⟨_, harm, rfl, rfl, rfl, rfl, rfl, fun _ => rfl⟩
  | succ m ih =>
    obtain ⟨y, hy, hynone⟩ := hnone 0 m.succ_pos
    rw [BitVec.add_zero] at hynone
    have hslot := succ_add_ofNat s.k
    rw [ticks_succ, tick_idleStay s y hp hst hynone hy, afterNext_next, ← hslot]
    refine ih { afterScan s with phase := .scan } rfl hst (fun j hj => ?_) (List.getElem?_tail.trans hsample) ?_
    · obtain ⟨z, hz, hznone⟩ := hnone (j + 1) (Nat.succ_lt_succ hj)
      exact ⟨z, List.getElem?_tail.trans hz, (hslot j).symm ▸ hznone⟩
    · exact (hslot m).symm ▸ hkey

/-- How many ticks serve other rows before the recorded row's turn. -/
def ticksToRow (s : State) : Nat := (s.prow - s.k).toNat

theorem k_add_ticksToRow (s : State) : s.k + BitVec.ofNat 2 (ticksToRow s) = s.prow := by
  rw [ticksToRow, BitVec.ofNat_toNat, BitVec.setWidth_eq, add_sub_cancel]

theorem other_row_before_turn (s : State) (j : Nat) (hj : j < ticksToRow s) : s.k + BitVec.ofNat 2 j ≠ s.prow := by
  intro heq
  rw [ticksToRow, ← eq_sub_of_add_eq' heq, BitVec.toNat_ofNat] at hj
  exact absurd hj (Nat.mod_le j (2 ^ 2)).not_gt

/-- The state at the recorded row's turn, where only SCANs have acted since `s`. -/
def atTurn (sel : Select) (seg : Byte) (r : Index) (c : Column) (s : State) : State :=
  { s with sel := sel, seg := seg, k := s.prow, r := r, c := c,
           samples := s.samples.drop (ticksToRow s), drawn := s.drawn + ticksToRow s, phase := .scan }

/-- While a key is pending, the recorded row's turn comes and nothing else changes before it (R93). -/
theorem ticks_to_turn (s : State) (hp : s.phase = .scan) (hkey : keyPending s = true) :
    ∃ sel seg r c, ticks (ticksToRow s) s = .next (atTurn sel seg r c s) := by
  have hrun := ticks_otherRows (ticksToRow s) s hp hkey (other_row_before_turn s)
  rwa [k_add_ticksToRow] at hrun

/-- Empty samples up to the recorded row's turn and for `N + 1` rounds after it. -/
def emptySamples (s : State) : List Column := List.replicate (ticksToRow s + 4 * (s.params.N + 1)) 0b0000

theorem emptySamples_after_turn (s : State) (j : Nat) (hj : j ≤ s.params.N) :
    ((emptySamples s).drop (ticksToRow s))[4 * j]? = some 0b0000 := by
  rw [List.getElem?_drop, emptySamples, List.getElem?_replicate, if_pos (by omega)]

/-- A recorded column that has a layout entry is not empty (R100). -/
theorem zero_ne_pcol_of_recorded (s : State) (hvalid : (recordedEntry s).isSome = true) :
    (0b0000 : Column) ≠ s.pcol := by
  intro hempty
  rw [recordedEntry, ← hempty] at hvalid
  cases hvalid

/-- At a tick of the recorded row, empty samples of that row lead back to IDLE: the first rejects a press (R86), and
those missing to `N + 1` confirm a release (R90). -/
theorem exists_ticks_to_idle (s : State) (hp : s.phase = .scan) (hkey : keyPending s = true) (hk : s.k = s.prow)
    (hvalid : (recordedEntry s).isSome = true) (hcnt : s.cnt ≤ s.params.N)
    (hsamples : ∀ j, j ≤ s.params.N → s.samples[4 * j]? = some 0b0000) :
    ∃ n t, ticks n s = .next t ∧ t.st = .idle := by
  obtain hst | hst := (keyPending_iff s).1 hkey
  · have hreject :=
      tick_pressReject s 0b0000 hp hst hk (hsamples 0 (Nat.zero_le _)) (zero_ne_pcol_of_recorded s hvalid)
    exact ⟨1, _, ticks_then_tick (ticks_zero s) hreject, rfl⟩
  · obtain ⟨n, hn⟩ := Nat.exists_eq_add_of_le hcnt
    obtain ⟨t, u, hrun, -, -, hdone, hidle, -⟩ :=
      ticks_releaseDone s n hp hst hk hn.symm fun j hj => hsamples j (by omega)
    exact ⟨4 * n + 1, u, ticks_then_tick hrun hdone, hidle⟩

theorem idle_of_not_keyPending (s : State) (hs : s.Inv) (hkey : keyPending s ≠ true) : s.st = .idle := by
  cases hst : s.st with
  | idle => rfl
  | process => exact absurd hst hs.notProcess
  | press => exact absurd ((keyPending_iff s).2 (.inl hst)) hkey
  | release => exact absurd ((keyPending_iff s).2 (.inr hst)) hkey

/-- Settles O47: where no key is pending the machine is in IDLE, and otherwise empty samples lead there. -/
theorem idleIsAlwaysReachable : Obligations.IdleIsAlwaysReachable := by
  intro s hs hp
  by_cases hkey : keyPending s = true
  · obtain ⟨sel, seg, r, c, hturn⟩ := ticks_to_turn { s with samples := emptySamples s } hp hkey
    obtain ⟨n, t, hrun, hidle⟩ := exists_ticks_to_idle (atTurn sel seg r c { s with samples := emptySamples s })
      rfl hkey rfl (hs.recordedValid hkey) (hs.cntPending hkey) (emptySamples_after_turn s)
    exact ⟨emptySamples s, ticksToRow s + n, t, ticks_then_ticks hturn hrun, hidle⟩
  · exact ⟨[], 0, _, ticks_zero _, idle_of_not_keyPending s hs hkey⟩

end Sys2Proof.Machine
end

section
/-!
What the tables hold, and what the Display Buffer holds after any number of pushes (O20, O49 to O52).
-/

namespace Sys2Proof.Machine

/-! ### The tables -/

/-- The one-line columns are the four on which the layout table is defined (R52). -/
theorem columnClass_single_iff (c : Column) : (∃ j, columnClass c = .single j) ↔ c = 1 ∨ c = 2 ∨ c = 4 ∨ c = 8 := by
  revert c; decide

/-- Settles O49: the entries are read off the table, and both sides of the equivalence name the same four columns. -/
theorem layoutTableEntries : Obligations.LayoutTableEntries := by
  intro P r c
  refine ⟨rfl, rfl, rfl, rfl, ?_⟩
  rw [columnClass_single_iff, ← keyDecode_isSome P r c, Option.isSome_iff_ne_none]
  rfl

/-- A symbol identity is its own code: 5 bits hold it (R53). -/
theorem symbolCode_some_toNat (x : Fin 16) : (symbolCode (some x)).toNat = x.val :=
  (BitVec.toNat_ofNat x.val 5).trans (Nat.mod_eq_of_lt (by omega))

theorem symbolCode_toNat_le (y : Symbol) : (symbolCode y).toNat ≤ 16 := by
  cases y with
  | none => exact Nat.le_refl 16
  | some x => rw [symbolCode_some_toNat]; omega

/-- Settles O50: `Decode` maps the second table over the entry of the first. -/
theorem decodeIsTheCompositionOfTheTables : Obligations.DecodeIsTheCompositionOfTheTables := by
  intro P r c
  refine ⟨fun x hx => ⟨?_, symbolCode_some_toNat x, by omega⟩, fun hnone => ?_, symbolCode_toNat_le _, rfl⟩
  · rw [decodePattern_of_key, hx]; rfl
  · rw [decodePattern_of_key, hnone]; rfl

/-! ### PROCESS on a recorded pair without a key -/

theorem exec_process_of_noKey (s : State) (h : recordedEntry s = none) :
    exec .process s = .fault .sentinelAtProcess :=
  processRecorded_of_noKey s h

/-- PRESS_ACCEPT reaches PROCESS with the recorded pair as it was, and so the same fault (R80). -/
theorem exec_pressAccept_of_noKey (s : State) (h : recordedEntry s = none) :
    exec .pressAccept s = .fault .sentinelAtProcess :=
  processRecorded_of_noKey { s with cnt := s.cnt + 1, st := .process } h

/-- Settles O20: what both operations answer turns on the layout entry of the recorded pair alone. -/
theorem sentinelPairFaultsAtProcess : Obligations.SentinelPairFaultsAtProcess := by
  intro s
  refine ⟨fun hnone => ⟨exec_process_of_noKey s hnone, exec_pressAccept_of_noKey s hnone⟩, fun hkey => ?_⟩
  obtain ⟨x, hx⟩ := Option.ne_none_iff_exists'.1 hkey
  exact ⟨⟨_, exec_process_of_key s x hx⟩, ⟨_, exec_pressAccept_of_key s x hx⟩⟩

/-! ### Pushes -/

/-- Settles O51: the two read-after-push rules, the advance modulo 4, and the frame, which `BufPush` has by definition. -/
theorem bufPushWritesThenAdvances : Obligations.BufPushWritesThenAdvances := fun pat s =>
  ⟨bufRead_bufPush_same pat s, bufRead_bufPush_of_ne pat s, toNat_add_ofNat s.widx 1, rfl⟩

/-- The pushes of a list of patterns, the first of the list first. -/
def pushAll (ps : List Byte) (s : State) : State := ps.foldl (fun u p => bufPush p u) s

@[simp] theorem pushAll_nil (s : State) : pushAll [] s = s := rfl

@[simp] theorem pushAll_cons (p : Byte) (ps : List Byte) (s : State) :
    pushAll (p :: ps) s = pushAll ps (bufPush p s) := rfl

/-- Each push advances the write index by one (R107). -/
theorem widx_pushAll (ps : List Byte) (s : State) : (pushAll ps s).widx = s.widx + BitVec.ofNat 2 ps.length := by
  induction ps generalizing s with
  | nil => exact (BitVec.add_zero s.widx).symm
  | cons p ps ih => exact (ih (bufPush p s)).trans (succ_add_ofNat s.widx ps.length)

/-- An entry that no push falls on keeps its byte. -/
theorem bufRead_pushAll_of_unreached (ps : List Byte) (s : State) (i : Index)
    (h : ∀ j, j < ps.length → s.widx + BitVec.ofNat 2 j ≠ i) : bufRead i (pushAll ps s) = bufRead i s := by
  induction ps generalizing s with
  | nil => rfl
  | cons p ps ih =>
    have hrest : ∀ j, j < ps.length → s.widx + 1 + BitVec.ofNat 2 j ≠ i := fun j hj =>
      succ_add_ofNat s.widx j ▸ h (j + 1) (Nat.succ_lt_succ hj)
    have hfirst : i ≠ s.widx := fun e => h 0 (Nat.succ_pos _) ((BitVec.add_zero s.widx).trans e.symm)
    exact (ih (bufPush p s) hrest).trans (bufRead_bufPush_of_ne p s i hfirst)

/-- A pattern with fewer than four pushes after it still stands in its entry (R109). -/
theorem bufRead_pushAll_of_last_four (ps : List Byte) (s : State) (j : Nat) (p : Byte) (hp : ps[j]? = some p)
    (hlast : ps.length ≤ j + 4) : bufRead (s.widx + BitVec.ofNat 2 j) (pushAll ps s) = p := by
  induction ps generalizing s j with
  | nil => cases hp
  | cons q ps ih =>
    rw [List.length_cons] at hlast
    cases j with
    | zero =>
      obtain rfl : q = p := by simpa using hp
      have hafter : ∀ j, j < ps.length → s.widx + 1 + BitVec.ofNat 2 j ≠ s.widx := fun j hj =>
        succ_add_ofNat s.widx j ▸ add_ofNat_ne_self s.widx (j + 1) (Nat.succ_pos j) (by omega)
      calc bufRead (s.widx + BitVec.ofNat 2 0) (pushAll ps (bufPush q s))
        _ = bufRead s.widx (pushAll ps (bufPush q s)) := by rw [BitVec.add_zero]
        _ = bufRead s.widx (bufPush q s) := bufRead_pushAll_of_unreached ps _ s.widx hafter
        _ = q := bufRead_bufPush_same q s
    | succ j =>
      rw [← succ_add_ofNat]
      exact ih (bufPush q s) j hp (by omega)

/-- From write index 0, the push number `j` falls on the entry `i` exactly where `j` is `i` modulo 4. -/
theorem widx_add_ofNat_eq_iff (s : State) (h : s.widx = 0) (j : Nat) (i : Index) :
    s.widx + BitVec.ofNat 2 j = i ↔ j % 4 = i.toNat := by
  rw [← BitVec.toNat_inj, toNat_add_ofNat, h]
  simp

/-- Settles O52: the rules of a run of pushes, at write index 0. -/
theorem displayHoldsTheLastFourPatterns : Obligations.DisplayHoldsTheLastFourPatterns := by
  intro ps s hs
  refine ⟨?_, fun i j p hp hj hlast => ?_, fun i hi => ?_⟩
  · exact ((widx_add_ofNat_eq_iff s hs ps.length _).1 (widx_pushAll ps s).symm).symm
  · obtain rfl := (widx_add_ofNat_eq_iff s hs j i).2 hj
    exact bufRead_pushAll_of_last_four ps s j p hp hlast
  · refine bufRead_pushAll_of_unreached ps s i fun j hj => ?_
    rw [Ne, widx_add_ofNat_eq_iff s hs]
    omega

end Sys2Proof.Machine
end

section
/-!
The two halves of a tick (O6, O8): what a step does with the operation it has decoded, and what the evaluation of a tick
is run on.
-/

namespace Sys2Proof.Machine

/-- A step runs the operation of the fetched word and passes to the other half of the tick (R116). -/
theorem step_of_decode_fetch (s : State) (i : Instr) (h : decode (fetch s) = .ok i) :
    step s = afterNext (exec i s) (fun t => .next { t with phase := nextPhase s.phase }) := by
  simp only [step, h]
  rfl

/-- Settles O6, by the three outcomes of the decoded operation. -/
theorem stepRunsTheDecodedOperation : Obligations.StepRunsTheDecodedOperation := by
  intro s i hi _
  rw [step_of_decode_fetch s i hi]
  cases exec i s with
  | next | fault | refused => rfl

/-- Settles O8: SCAN's next state with the evaluation next is `afterScan s`, and the operation is the one that its
condition word selects, which is never a SCAN. -/
theorem tickIsOneScanThenOneEvaluation : Obligations.TickIsOneScanThenOneEvaluation := by
  intro s hp
  obtain ⟨i, hi⟩ := exists_selected (afterScan s)
  have htick : tick s = afterNext (exec i (afterScan s)) (fun t => .next { t with phase := .scan }) := by
    rw [tick_eq_step_afterScan s hp, step_at_eval (afterScan s) i rfl hi]
  refine ⟨_, i, exec_scan s.k s, decode_fetch_of_selected (afterScan s) i rfl hi, selected_ne_scan _ i hi,
    fun t ht => ?_, fun e he => ?_⟩
  · rw [htick]
    exact congrArg (afterNext · _) ht
  · rw [htick]
    exact congrArg (afterNext · _) he

end Sys2Proof.Machine
end

section
/-!
What every step keeps (O28, O31): the invariant of the block, by the operations that each FSM state selects, and the
agreement of the select latch, the row operand and the scan index, by SCAN alone.
-/

namespace Sys2Proof.Machine

/-! ### The invariant of the block -/

/-- SCAN writes no item of the invariant but the select latch, which it leaves one-cold (R123). -/
theorem afterScan_inv (s : State) (hs : s.Inv) : (afterScan s).Inv where
  notProcess := hs.notProcess
  recordedValid := hs.recordedValid
  cntBound := hs.cntBound
  cntPending := hs.cntPending
  selLegal := .inr ⟨s.k, rfl⟩
  bufWf := hs.bufWf

/-- The end of an evaluation that changed nothing. -/
theorem endTick_inv (s : State) (hs : s.Inv) : ({ s with phase := .scan } : State).Inv :=
  ⟨hs.notProcess, hs.recordedValid, hs.cntBound, hs.cntPending, hs.selLegal, hs.bufWf⟩

/-- The end of an evaluation that wrote the counter alone, with a value that a pending key allows (R84, R89, R91). -/
theorem writeCnt_inv (s : State) (n : Nat) (hs : s.Inv) (hn : n ≤ s.params.N) :
    ({ s with cnt := n, phase := .scan } : State).Inv :=
  ⟨hs.notProcess, hs.recordedValid, Nat.le_succ_of_le hn, fun _ => hn, hs.selLegal, hs.bufWf⟩

/-- The end of an evaluation that returned to IDLE: no key is pending any more (R86, R90). -/
theorem toIdle_inv (s : State) (n : Nat) (hs : s.Inv) (hn : n ≤ s.params.N + 1) :
    ({ s with cnt := n, st := .idle, phase := .scan } : State).Inv :=
  ⟨nofun, nofun, hn, nofun, hs.selLegal, hs.bufWf⟩

/-- The end of an evaluation that armed a valid key (R82, R122). -/
theorem arm_inv (s : State) (hs : s.Inv) (hkey : validKey s = true) :
    ({ s with prow := s.r, pcol := s.c, cnt := 0, st := .press, phase := .scan } : State).Inv :=
  ⟨nofun, fun _ => hkey, Nat.zero_le _, fun _ => Nat.zero_le _, hs.selLegal, hs.bufWf⟩

/-- The end of an evaluation that accepted the recorded key (R87). -/
theorem afterAccept_inv (s : State) (x : Fin 16) (hs : s.Inv) (hx : recordedEntry s = some x) :
    (afterAccept x s).Inv where
  notProcess := nofun
  recordedValid := fun _ => Option.isSome_of_eq_some hx
  cntBound := Nat.zero_le _
  cntPending := fun _ => Nat.zero_le _
  selLegal := hs.selLegal
  bufWf := bufPush_wf _ s hs.bufWf

theorem step_idle_inv (s t : State) (hs : s.Inv) (hp : s.phase = .eval) (hst : s.st = .idle)
    (h : step s = .next t) : t.Inv := by
  rw [step_idle s hp hst] at h
  cases h
  split_ifs with hkey
  · exact arm_inv s hs hkey
  · exact endTick_inv s hs

theorem step_press_inv (s t : State) (hs : s.Inv) (hp : s.phase = .eval) (hst : s.st = .press)
    (h : step s = .next t) : t.Inv := by
  obtain ⟨x, hx⟩ := Option.isSome_iff_exists.1 (hs.recordedValid ((keyPending_iff s).2 (.inl hst)))
  rw [step_at_eval s _ hp (caseTree_press s hst)] at h
  split_ifs at h with hrow hcol hcnt
  · cases h; exact endTick_inv s hs
  · cases h; exact toIdle_inv s s.cnt hs hs.cntBound
  · rw [exec_pressAccept_of_key s x hx] at h
    cases h
    exact afterAccept_inv s x hs hx
  · cases h; exact writeCnt_inv s (s.cnt + 1) hs (not_lt.1 hcnt)

theorem step_release_inv (s t : State) (hs : s.Inv) (hp : s.phase = .eval) (hst : s.st = .release)
    (h : step s = .next t) : t.Inv := by
  have hpending : s.cnt ≤ s.params.N := hs.cntPending ((keyPending_iff s).2 (.inr hst))
  rw [step_at_eval s _ hp (caseTree_release s hst)] at h
  split_ifs at h with hrow hcol hcnt
  · cases h; exact endTick_inv s hs
  · cases h; exact writeCnt_inv s 0 hs (Nat.zero_le _)
  · cases h; exact toIdle_inv s (s.cnt + 1) hs (Nat.succ_le_succ hpending)
  · cases h; exact writeCnt_inv s (s.cnt + 1) hs (not_lt.1 hcnt)

/-- Settles O28, by the half of the tick and the FSM state; PROCESS is no state between two steps. -/
theorem stepKeepsInvariant : Obligations.StepKeepsInvariant := by
  intro s t hs h
  cases hp : s.phase with
  | scan =>
    rw [step_scan s hp] at h
    cases h
    exact afterScan_inv s hs
  | eval =>
    cases hst : s.st with
    | idle => exact step_idle_inv s t hs hp hst h
    | press => exact step_press_inv s t hs hp hst h
    | process => exact absurd hst hs.notProcess
    | release => exact step_release_inv s t hs hp hst h

/-! ### The slot invariant -/

/-- The slot that a SCAN has served is the one before the scan index it leaves (R72, R76). -/
theorem afterScan_slotInv (s : State) : (afterScan s).SlotInv := by
  have hserved : s.k = s.k + 1 - 1 := (add_sub_cancel_right s.k 1).symm
  exact ⟨.inr ⟨Nat.succ_ne_zero _, congrArg onecold4 hserved⟩, fun _ => hserved⟩

/-- The FSM evaluation makes no column read (R74). -/
theorem step_eval_keeps_drawn (s t : State) (hp : s.phase = .eval) (h : step s = .next t) : t.drawn = s.drawn := by
  obtain ⟨hscan, -⟩ | ⟨-, i, u, hi, hu, rfl⟩ := step_cases s t h
  · rw [hp] at hscan
    cases hscan
  · obtain ⟨-, -, -, -, -, -, hdrawn⟩ := exec_fsm_keeps_scan_items i s u (selected_ne_scan _ i hi) hu
    exact hdrawn

/-- The FSM evaluation writes none of the items in the agreement (R18). -/
theorem step_eval_slotInv (s t : State) (hs : s.SlotInv) (hp : s.phase = .eval) (h : step s = .next t) :
    t.SlotInv := by
  obtain ⟨hphase, hk, hsel, -⟩ := step_eval_keeps_scan_items s t hp h
  obtain ⟨-, -, hscan⟩ | hserved := hs.selServed
  · rw [hp] at hscan
    cases hscan
  · refine ⟨.inr ?_, fun heval => ?_⟩
    · rwa [step_eval_keeps_drawn s t hp h, hsel, hk]
    · rw [hphase] at heval
      cases heval

/-- Settles O31: SCAN brings the agreement about, and the FSM evaluation keeps it. -/
theorem stepKeepsSlotInvariant : Obligations.StepKeepsSlotInvariant := by
  intro s t hs h
  cases hp : s.phase with
  | scan =>
    rw [step_scan s hp] at h
    cases h
    exact afterScan_slotInv s
  | eval => exact step_eval_slotInv s t hs hp h

end Sys2Proof.Machine
end

section
/-!
Runs of ticks under the invariant (O33).
-/

namespace Sys2Proof.Machine

/-- A tick makes exactly one column read (R74). -/
theorem tick_drawn (s t : State) (hp : s.phase = .scan) (h : tick s = .next t) : t.drawn = s.drawn + 1 := by
  rw [tick_eq_step_afterScan s hp] at h
  exact step_eval_keeps_drawn (afterScan s) t rfl h

/-- From a state with the invariant a tick completes and keeps it (R117). -/
theorem tick_completes (s : State) (hs : s.Inv) (hp : s.phase = .scan) : ∃ t, tick s = .next t ∧ t.Inv := by
  have hscan : (afterScan s).Inv := afterScan_inv s hs
  obtain ⟨t, hstep⟩ := noStepStopsUnderTheInvariant (afterScan s) hscan
  exact ⟨t, (tick_eq_step_afterScan s hp).trans hstep, stepKeepsInvariant (afterScan s) t hscan hstep⟩

theorem ticks_complete (n : Nat) (s : State) (hs : s.Inv) (hp : s.phase = .scan) :
    ∃ t, ticks n s = .next t ∧ t.Inv ∧ t.drawn = s.drawn + n := by
  induction n generalizing s with
  | zero => exact ⟨s, ticks_zero s, hs, rfl⟩
  | succ n ih =>
    obtain ⟨u, htick, hu⟩ := tick_completes s hs hp
    obtain ⟨hphase, -⟩ := tick_serves_slot s u hp htick
    obtain ⟨t, hrun, ht, hdrawn⟩ := ih u hu hphase
    refine ⟨t, ?_, ht, ?_⟩
    · rw [ticks_succ, htick, afterNext_next, hrun]
    · rw [hdrawn, tick_drawn s u hp htick]
      omega

/-- Settles O33: the run completes, and every run that completes has advanced the scan index once a tick. -/
theorem runsOfTicksComplete : Obligations.RunsOfTicksComplete := by
  intro n s hs hp
  obtain ⟨t, hrun, ht, hdrawn⟩ := ticks_complete n s hs hp
  obtain ⟨hphase, hk⟩ := ticks_advance n s t hp hrun
  exact ⟨t, hrun, ht, hphase, by rw [hk, toNat_add_ofNat], hdrawn⟩

end Sys2Proof.Machine
end

section
/-!
Acceptance and a whole clean press and release (O40, O43): the arming and counting rounds, the accepting round, the
rounds in which the key is held, and the rounds that confirm its release.
-/

namespace Sys2Proof.Machine

/-- The sample read in the tick `j` rounds after `n` rounds. -/
theorem afterRounds_getElem? (n cnt : Nat) (sel : Select) (seg : Byte) (r : Index) (c : Column) (s : State) (j : Nat) :
    (afterRounds n cnt sel seg r c s).samples[4 * j]? = s.samples[4 * (n + j)]? := by
  rw [Nat.mul_add]
  exact List.getElem?_drop

/-! ### Acceptance -/

/-- In PRESS, the tick of the recorded row whose matching sample takes the counter above `N` accepts the key (R85). -/
theorem tick_pressAccept (s : State) (x : Fin 16) (hp : s.phase = .scan) (hst : s.st = .press) (hk : s.k = s.prow)
    (hsample : s.samples[0]? = some s.pcol) (hcnt : s.cnt + 1 > s.params.N) (hx : recordedEntry s = some x) :
    tick s = .next (afterAccept x (afterScan s)) := by
  rw [tick_eq_step_afterScan s hp]
  exact step_pressAccept (afterScan s) x rfl hst hk (portReadCol_of_head? s _ hsample) hcnt hx

/-- Settles O40: after the arming round and `N` counting rounds the counter is `N`, so the next tick of the row
accepts. -/
theorem heldKeyIsAcceptedOnTime : Obligations.HeldKeyIsAcceptedOnTime := by
  intro s v x hp hst hkey hsamples
  obtain ⟨sel, seg, r, c, hrun⟩ := ticks_arm_count s.params.N s v x hp hst hkey le_rfl
    fun j hj => hsamples j (Nat.le_succ_of_le hj)
  have haccept := tick_pressAccept (afterRounds (s.params.N + 1) s.params.N sel seg r c (recordKey v s)) x hp rfl rfl
    ((afterRounds_head? ..).trans (hsamples _ le_rfl)) (Nat.lt_succ_self _) hkey
  exact ⟨_, _, hrun, rfl, rfl, fun _ => rfl, haccept, rfl, rfl, toNat_add_ofNat s.widx 1,
    bufRead_bufPush_same (s.params.segtab.get x) s, bufRead_bufPush_of_ne (s.params.segtab.get x) s⟩

/-- The round that starts with the accepting tick leaves the key processed. -/
theorem ticks_accept_round (s : State) (x : Fin 16) (hp : s.phase = .scan) (hst : s.st = .press) (hk : s.k = s.prow)
    (hsample : s.samples[0]? = some s.pcol) (hcnt : s.cnt + 1 > s.params.N) (hx : recordedEntry s = some x) :
    ∃ sel seg r c, ticks 4 s = .next (afterRounds 1 0 sel seg r c (processed x s)) := by
  obtain ⟨sel, seg, r, c, hround⟩ := ticks_round s _ (tick_pressAccept s x hp hst hk hsample hcnt hx) rfl rfl
    (congrArg (· + 1) hk)
  refine ⟨sel, seg, r, c, ?_⟩
  simp [hround, afterRounds, processed, afterAccept, afterScan, bufPush, bufWrite, hp, hk, Nat.add_assoc]

/-- PROCESS clears the counter and looks at nothing else that rounds write (R87). -/
theorem processed_afterRounds (n cnt : Nat) (sel : Select) (seg : Byte) (r : Index) (c : Column) (s : State)
    (x : Fin 16) : processed x (afterRounds n cnt sel seg r c s) = afterRounds n 0 sel seg r c (processed x s) := rfl

/-- From IDLE, a key seen in the arming tick and in the next `N + 1` samples of its row: after `N + 2` rounds the
machine is in RELEASE with the key processed and nothing counted. -/
theorem ticks_arm_accept (s : State) (v : Column) (x : Fin 16) (hp : s.phase = .scan) (hst : s.st = .idle)
    (hkey : keyDecode s.params s.k v = some x)
    (hsamples : ∀ j, j ≤ s.params.N + 1 → s.samples[4 * j]? = some v) :
    ∃ sel seg r c, ticks (4 * (s.params.N + 2)) s =
      .next (afterRounds (s.params.N + 2) 0 sel seg r c (processed x (recordKey v s))) := by
  obtain ⟨sel, seg, r, c, hrun⟩ := ticks_arm_count s.params.N s v x hp hst hkey le_rfl
    fun j hj => hsamples j (Nat.le_succ_of_le hj)
  obtain ⟨sel', seg', r', c', hround⟩ := ticks_accept_round
    (afterRounds (s.params.N + 1) s.params.N sel seg r c (recordKey v s)) x hp rfl rfl
    ((afterRounds_head? ..).trans (hsamples _ le_rfl)) (Nat.lt_succ_self _) hkey
  rw [processed_afterRounds, afterRounds_afterRounds] at hround
  exact ⟨sel', seg', r', c', ticks_then_ticks hrun hround⟩

/-! ### A key that stays pressed -/

/-- In RELEASE, a tick of the recorded row with any column asserted clears the counter (R91). -/
theorem tick_releaseHold (s : State) (y : Column) (hp : s.phase = .scan) (hst : s.st = .release) (hk : s.k = s.prow)
    (hsample : s.samples[0]? = some y) (hy : y ≠ 0b0000) :
    tick s = .next { afterScan s with cnt := 0, phase := .scan } := by
  obtain rfl := portReadCol_of_head? s y hsample
  rw [tick_eq_step_afterScan s hp]
  exact step_releaseHold (afterScan s) rfl hst hk hy

/-- A round of RELEASE that starts with an asserted column. -/
theorem ticks_hold_round (s : State) (y : Column) (hp : s.phase = .scan) (hst : s.st = .release) (hk : s.k = s.prow)
    (hsample : s.samples[0]? = some y) (hy : y ≠ 0b0000) :
    ∃ sel seg r c, ticks 4 s = .next (afterRounds 1 0 sel seg r c s) := by
  have hkey : keyPending s = true := (keyPending_iff s).2 (.inr hst)
  obtain ⟨sel, seg, r, c, hround⟩ :=
    ticks_round s _ (tick_releaseHold s y hp hst hk hsample hy) rfl hkey (congrArg (· + 1) hk)
  refine ⟨sel, seg, r, c, ?_⟩
  simp [hround, afterRounds, afterScan, hp, hk, Nat.add_assoc]

/-- `n` rounds of RELEASE with an asserted column in the recorded row's ticks count nothing, whatever the other rows
show (R91, R149). -/
theorem ticks_hold (n : Nat) (s : State) (hp : s.phase = .scan) (hst : s.st = .release) (hk : s.k = s.prow)
    (hsamples : ∀ j, j < n → ∃ y, s.samples[4 * j]? = some y ∧ y ≠ 0b0000) :
    ∃ cnt sel seg r c, cnt ≤ s.cnt ∧ ticks (4 * n) s = .next (afterRounds n cnt sel seg r c s) := by
  induction n with
  | zero => exact ⟨s.cnt, s.sel, s.seg, s.r, s.c, le_rfl, rfl⟩
  | succ n ih =>
    obtain ⟨cnt, sel, seg, r, c, -, hrun⟩ := ih fun j hj => hsamples j (by omega)
    obtain ⟨y, hy, hasserted⟩ := hsamples n n.lt_succ_self
    obtain ⟨sel', seg', r', c', hround⟩ := ticks_hold_round (afterRounds n cnt sel seg r c s) y hp hst hk
      ((afterRounds_head? ..).trans hy) hasserted
    rw [afterRounds_afterRounds] at hround
    exact ⟨0, sel', seg', r', c', Nat.zero_le _, ticks_then_ticks hrun hround⟩

/-- In RELEASE with nothing counted, `m` rounds with the key held and then `N + 1` empty samples of its row return to
IDLE with nothing appended. -/
theorem ticks_hold_release (s : State) (m : Nat) (hp : s.phase = .scan) (hst : s.st = .release) (hk : s.k = s.prow)
    (hcnt : s.cnt = 0) (hheld : ∀ j, j < m → ∃ y, s.samples[4 * j]? = some y ∧ y ≠ 0b0000)
    (hempty : ∀ j, j ≤ s.params.N → s.samples[4 * (m + j)]? = some 0b0000) :
    ∃ t, ticks (4 * (m + s.params.N) + 1) s = .next t ∧ t.st = .idle ∧ t.widx = s.widx ∧
      ∀ i, bufRead i t = bufRead i s := by
  obtain ⟨cnt, sel, seg, r, c, hle, hhold⟩ := ticks_hold m s hp hst hk hheld
  obtain rfl : cnt = 0 := Nat.le_zero.1 (hle.trans hcnt.le)
  obtain ⟨_, t, hcount, -, -, hdone, hidle, -, hwidx, hbuf⟩ :=
    ticks_releaseDone (afterRounds m 0 sel seg r c s) s.params.N hp hst hk (Nat.zero_add _)
      fun j hj => (afterRounds_getElem? ..).trans (hempty j hj)
  rw [Nat.mul_add]
  exact ⟨t, ticks_then_tick (ticks_then_ticks hhold hcount) hdone, hidle, hwidx, hbuf⟩

/-- Settles O43: the press ends with the key's pattern pushed, and holding and releasing the key push nothing more. -/
theorem cleanPressAndReleaseAppendsOneSymbol : Obligations.CleanPressAndReleaseAppendsOneSymbol := by
  intro s v x m hp hst hkey hpressed hheld hempty
  obtain ⟨sel, seg, r, c, hpress⟩ := ticks_arm_accept s v x hp hst hkey hpressed
  obtain ⟨t, hrelease, hidle, hwidx, hbuf⟩ :=
    ticks_hold_release (afterRounds (s.params.N + 2) 0 sel seg r c (processed x (recordKey v s))) m hp rfl rfl rfl
      (fun j hj => by
        rw [afterRounds_getElem?]
        exact hheld _ (by omega) (by omega))
      (fun j hj => by
        rw [afterRounds_getElem?]
        have hj : j ≤ s.params.N := hj
        exact hempty _ (by omega) (by omega))
  refine ⟨t, ?_, hidle, ?_, ?_, fun i hi => ?_⟩
  · have hlength : 4 * (2 * (s.params.N + 1) + m) + 1 = 4 * (s.params.N + 2) + (4 * (m + s.params.N) + 1) := by omega
    rw [hlength]
    exact ticks_then_ticks hpress hrelease
  · rw [hwidx]
    exact toNat_add_ofNat s.widx 1
  · rw [hbuf]
    exact bufRead_bufPush_same (s.params.segtab.get x) s
  · rw [hbuf]
    exact bufRead_bufPush_of_ne (s.params.segtab.get x) s i hi

end Sys2Proof.Machine
end

section
/-!
A key held for ever (O44): the rounds of RELEASE in which the recorded row shows an asserted column.
-/

namespace Sys2Proof.Machine

/-- Settles O44: the `n` held rounds of `ticks_hold` write nothing but the counter, the latches, the operands and the
input, of which they read four samples a round. -/
theorem heldKeyKeepsTheMachineInRelease : Obligations.HeldKeyKeepsTheMachineInRelease := by
  intro n s hp hst hk hheld
  obtain ⟨cnt, sel, seg, r, c, -, hrun⟩ := ticks_hold n s hp hst hk hheld
  exact ⟨afterRounds n cnt sel seg r c s, hrun, hst, rfl, rfl, rfl, rfl, fun _ => rfl⟩

end Sys2Proof.Machine
end

section
/-!
Reset in any state (O36): `applyReset` is `resetWith` of the two things that are not the block's, the parameters and the
input.
-/

namespace Sys2Proof.Machine

/-- Settles O36: the reset state takes nothing from the registers of `s`, and its Display Buffer lists nothing, so that
no entry of `s` is read after it. -/
theorem resetErasesEveryState : Obligations.ResetErasesEveryState := by
  intro s
  have hbuf : ∀ i, bufRead i (applyReset s) = 0xFF := fun i => bufRead_resetWith i s.params s.samples s.drawn
  exact ⟨rfl, rfl, rfl, rfl, rfl, rfl, hbuf, rfl, rfl, rfl, rfl, rfl⟩

end Sys2Proof.Machine
end
